-- ==== Sys2Proof/Word.lean ====
section
/-! DEFINITION. The widths of the machine's values (spec 00_scope.md R4, 30_encoding.md R61). All are unsigned (R6). -/

namespace Sys2Proof

/-- An 8-bit value: a general register, a timer, a byte of memory, the immediate `kk`. -/
abbrev Byte := BitVec 8

/-- A 16-bit value: an instruction word, `PC`, `I`, a stack slot. -/
abbrev Word := BitVec 16

/-- A 12-bit address field `nnn` of an instruction word. -/
abbrev Addr := BitVec 12

/-- A 4-bit field of an instruction word: the sprite height `n`, an ignored nibble, a family. -/
abbrev Nibble := BitVec 4

/-- A register index, the 4-bit field `x` or `y` (R10: every index names a register). -/
abbrev RegIdx := BitVec 4

/-- A key code, 0 to 15 (R17). -/
abbrev Key := BitVec 4

end Sys2Proof
end

