-- ==== Sys2Proof/Config.lean ====
section
/-! DEFINITION. The parameters of the model (spec 00_scope.md R5, R9), the events of the environment, and the two free values.
The parameters are plain data carried by the state and changed by no step, so that a claim about every state is a claim
about every value of them (log 4). -/

namespace Sys2Proof

/-- The parameters of R5 that outlive boot. `PROGRAM` is an argument of boot only; the random source is `Config.randomByte`,
the arbitration is `Config.environmentTurn`, after the turns already settled in the state. -/
structure Config where
  /-- `DISPLAY_W`, columns of the display. -/
  displayW : Nat
  /-- `DISPLAY_H`, rows of the display. -/
  displayH : Nat
  /-- `DEBUG_MODE`: true is the Debug Stepper. -/
  debugMode : Bool
  /-- `FONT`: byte `5*d + r` is row `r` of the glyph of digit `d`. -/
  font : Vector Byte 80
  /-- `INSTR_HZ`; no rule depends on it (R245). DESIGN CHOICE: R5 says only "positive rate", the model takes a whole number of Hz
  (log 7). -/
  instrHz : Nat
  /-- `FRAME_HZ`; no rule depends on it (R245). DESIGN CHOICE: a whole number of Hz, as above (log 7). -/
  frameHz : Nat
  /-- R140: `DISPLAY_W >= 8`. -/
  wide : 8 ≤ displayW
  /-- R140: `DISPLAY_H >= 15`. -/
  tall : 15 ≤ displayH
  /-- R5: a positive rate. -/
  instrHz_pos : 0 < instrHz
  /-- R5: a positive rate. -/
  frameHz_pos : 0 < frameHz
deriving DecidableEq, Repr

/-- The random source (44_alu.md R124): the byte the environment answers to the `n`-th `Cxkk` since reset. A FREE VALUE: it has
no body, so nothing can be proved about a byte it answers (log 9). -/
opaque Config.randomByte : Nat → Byte

/-- What happens next outside the handlers (R8, R162, R164, R165; log 3): the environment offers an event of one of the four sources
and the arbiter picks it, or the input collaborator appends a report to its FIFO. -/
inductive Machine.Turn where
  /-- instruction-ready; in debug mode, the manual step command -/
  | instrReady
  /-- frame-ready -/
  | frameReady
  /-- input-ready, picked by the arbiter; ready iff the FIFO is not empty -/
  | inputReady
  /-- quit-ready -/
  | quitReady
  /-- the collaborator reports a press (`some`) or a release (`none`) -/
  | keyReport (report : Option Key)
deriving DecidableEq, Repr

/-- The environment and the arbiter (R8, R162, R164; D11): which event is served when they are asked for the `n`-th time, `none` where
no source is ready then. A FREE VALUE: it has no body, so no order of events, no choice among ready sources and no fairness can be
proved of it (log 3). -/
opaque Config.environmentTurn : Nat → Option Machine.Turn

end Sys2Proof
end

