-- ==== Sys2Proof/Syntax.lean ====
section
/-! DEFINITION. The instructions: one constructor per row of spec/opcode_table.json (30_encoding.md R66), with the fields the row
names. Bits the class ignores (R68) are kept, so that an instruction says its whole word (log 16). -/

namespace Sys2Proof

/-- One opcode class of R66 with its operands. -/
inductive Instr where
  /-- `00E0` -/
  | cls
  /-- `00EE` -/
  | ret
  /-- `0nnn`, not `00E0`, not `00EE` -/
  | sys (nnn : Addr)
  /-- `1nnn` -/
  | jp (nnn : Addr)
  /-- `2nnn` -/
  | call (nnn : Addr)
  /-- `3xkk` -/
  | seImm (x : RegIdx) (kk : Byte)
  /-- `4xkk` -/
  | sneImm (x : RegIdx) (kk : Byte)
  /-- `5xy-`, the low nibble ignored -/
  | seReg (x y : RegIdx) (ignored : Nibble)
  /-- `6xkk` -/
  | ldImm (x : RegIdx) (kk : Byte)
  /-- `7xkk` -/
  | addImm (x : RegIdx) (kk : Byte)
  /-- `8xy0` -/
  | ldReg (x y : RegIdx)
  /-- `8xy1` -/
  | orReg (x y : RegIdx)
  /-- `8xy2` -/
  | andReg (x y : RegIdx)
  /-- `8xy3` -/
  | xorReg (x y : RegIdx)
  /-- `8xy4` -/
  | addReg (x y : RegIdx)
  /-- `8xy5` -/
  | sub (x y : RegIdx)
  /-- `8x-6`, the `y` nibble ignored -/
  | shr (x : RegIdx) (ignored : Nibble)
  /-- `8xy7`, destination `V[y]` -/
  | subr (x y : RegIdx)
  /-- `8x-E`, the `y` nibble ignored -/
  | shl (x : RegIdx) (ignored : Nibble)
  /-- `9xy-`, the low nibble ignored -/
  | sneReg (x y : RegIdx) (ignored : Nibble)
  /-- `Annn` -/
  | ldI (nnn : Addr)
  /-- `Bnnn` -/
  | jpV0 (nnn : Addr)
  /-- `Cxkk` -/
  | rnd (x : RegIdx) (kk : Byte)
  /-- `Dxyn` -/
  | drw (x y : RegIdx) (n : Nibble)
  /-- `Ex9E` -/
  | skp (x : RegIdx)
  /-- `ExA1` -/
  | sknp (x : RegIdx)
  /-- `Fx07` -/
  | ldVxDt (x : RegIdx)
  /-- `Fx0A` -/
  | ldVxK (x : RegIdx)
  /-- `Fx15` -/
  | ldDtVx (x : RegIdx)
  /-- `Fx18` -/
  | ldStVx (x : RegIdx)
  /-- `Fx1E` -/
  | addI (x : RegIdx)
  /-- `Fx29` -/
  | ldF (x : RegIdx)
  /-- `Fx33` -/
  | bcd (x : RegIdx)
  /-- `Fx55` -/
  | stm (x : RegIdx)
  /-- `Fx65` -/
  | ldm (x : RegIdx)
  /-- every word no row above takes (R67) -/
  | unrecognized (word : Word)
deriving DecidableEq, Repr

/-- The row's mnemonic in spec/opcode_table.json. -/
def Instr.mnemonic : Instr → String
  | .cls => "CLS"
  | .ret => "RET"
  | .sys _ => "SYS"
  | .jp _ => "JP"
  | .call _ => "CALL"
  | .seImm _ _ => "SE_IMM"
  | .sneImm _ _ => "SNE_IMM"
  | .seReg _ _ _ => "SE_REG"
  | .ldImm _ _ => "LD_IMM"
  | .addImm _ _ => "ADD_IMM"
  | .ldReg _ _ => "LD_REG"
  | .orReg _ _ => "OR"
  | .andReg _ _ => "AND"
  | .xorReg _ _ => "XOR"
  | .addReg _ _ => "ADD_REG"
  | .sub _ _ => "SUB"
  | .shr _ _ => "SHR"
  | .subr _ _ => "SUBR"
  | .shl _ _ => "SHL"
  | .sneReg _ _ _ => "SNE_REG"
  | .ldI _ => "LD_I"
  | .jpV0 _ => "JP_V0"
  | .rnd _ _ => "RND"
  | .drw _ _ _ => "DRW"
  | .skp _ => "SKP"
  | .sknp _ => "SKNP"
  | .ldVxDt _ => "LD_VX_DT"
  | .ldVxK _ => "LD_VX_K"
  | .ldDtVx _ => "LD_DT_VX"
  | .ldStVx _ => "LD_ST_VX"
  | .addI _ => "ADD_I"
  | .ldF _ => "LD_F"
  | .bcd _ => "BCD"
  | .stm _ => "STM"
  | .ldm _ => "LDM"
  | .unrecognized _ => "UNRECOGNIZED"

end Sys2Proof
end

