-- ==== Sys2Proof/WellFormed.lean ====
section
/-! DEFINITION. Which terms of `Instr` are instructions: the field widths are the types', so two checks are left, those of the rows
that take only the words no row of higher priority takes (30_encoding.md R66, R67). -/

namespace Sys2Proof

/-- R66, row `SYS`: every word of family 0 except the two exact-match words. -/
def sysOperandOk (nnn : Addr) : Bool :=
  nnn != 0x0E0#12 && nnn != 0x0EE#12

/-- R67: the sub-operation nibbles of family 8 that no row takes. -/
def unusedNibble8 : List Nibble := [0x8#4, 0x9#4, 0xA#4, 0xB#4, 0xC#4, 0xD#4, 0xF#4]

/-- R67: the sub-operation bytes of family E that a row takes. -/
def usedBytesE : List Byte := [0x9E#8, 0xA1#8]

/-- R67: the sub-operation bytes of family F that a row takes. -/
def usedBytesF : List Byte :=
  [0x07#8, 0x0A#8, 0x15#8, 0x18#8, 0x1E#8, 0x29#8, 0x33#8, 0x55#8, 0x65#8]

/-- R67: the unrecognized words, family by family. -/
def unrecognizedWord (w : Word) : Bool :=
  (w.extractLsb' 12 4 == 0x8#4 && unusedNibble8.contains (w.extractLsb' 0 4))
    || (w.extractLsb' 12 4 == 0xE#4 && !usedBytesE.contains (w.extractLsb' 0 8))
    || (w.extractLsb' 12 4 == 0xF#4 && !usedBytesF.contains (w.extractLsb' 0 8))

/-- The instruction is one that some word encodes. -/
def Instr.wellFormed : Instr → Bool
  | .sys nnn => sysOperandOk nnn
  | .unrecognized w => unrecognizedWord w
  | .cls | .ret | .jp _ | .call _ | .seImm _ _ | .sneImm _ _ | .seReg _ _ _ | .ldImm _ _ | .addImm _ _
  | .ldReg _ _ | .orReg _ _ | .andReg _ _ | .xorReg _ _ | .addReg _ _ | .sub _ _ | .shr _ _ | .subr _ _
  | .shl _ _ | .sneReg _ _ _ | .ldI _ | .jpV0 _ | .rnd _ _ | .drw _ _ _ | .skp _ | .sknp _ | .ldVxDt _
  | .ldVxK _ | .ldDtVx _ | .ldStVx _ | .addI _ | .ldF _ | .bcd _ | .stm _ | .ldm _ => true

end Sys2Proof
end

