-- ==== Sys2Proof/Decode.lean ====
section
/-! DEFINITION. The decoder, the opcode resolver and, after them, the encoder (spec 30_encoding.md). Decoding is pure and total on
words (R62); the only thing refused is a byte string too short to hold a word. -/

namespace Sys2Proof

/-- R61: `word = high<<8 | low`, the high byte first. -/
def joinBytes (hi lo : Byte) : Word := hi.zeroExtend 16 <<< 8 ||| lo.zeroExtend 16

/-- R60: the first byte of a word in memory. -/
def highByte (w : Word) : Byte := w.extractLsb' 8 8

/-- R60: the second byte of a word in memory. -/
def lowByte (w : Word) : Byte := w.extractLsb' 0 8

/-- R61: `family = word[15:12]`. -/
def familyField (w : Word) : Nibble := w.extractLsb' 12 4

/-- R61: `x = word[11:8]`. -/
def xField (w : Word) : RegIdx := w.extractLsb' 8 4

/-- R61: `y = word[7:4]`. -/
def yField (w : Word) : RegIdx := w.extractLsb' 4 4

/-- R61: `nibble = word[3:0]`. -/
def nibbleField (w : Word) : Nibble := w.extractLsb' 0 4

/-- R61: `kk = word[7:0]`. -/
def kkField (w : Word) : Byte := w.extractLsb' 0 8

/-- R61: `addr = word[11:0]`. -/
def addrField (w : Word) : Addr := w.extractLsb' 0 12

/-- R61, R82: the record the decoder makes of a byte pair, whatever its class. -/
structure Decoded where
  word : Word
  addr : Addr
  x : RegIdx
  y : RegIdx
  kk : Byte
  nibble : Nibble
  pc : Word
deriving DecidableEq, Repr

/-- R61: `decode(high_byte, low_byte, pc) -> Instruction`. -/
def decode (hi lo : Byte) (pc : Word) : Decoded :=
  let w := joinBytes hi lo
  { word := w, addr := addrField w, x := xField w, y := yField w, kk := kkField w, nibble := nibbleField w, pc := pc }

/-- R65, level 3 of family 8: the low nibble. -/
def resolveFamily8 (w : Word) : Instr :=
  if nibbleField w = 0x0#4 then .ldReg (xField w) (yField w)
  else if nibbleField w = 0x1#4 then .orReg (xField w) (yField w)
  else if nibbleField w = 0x2#4 then .andReg (xField w) (yField w)
  else if nibbleField w = 0x3#4 then .xorReg (xField w) (yField w)
  else if nibbleField w = 0x4#4 then .addReg (xField w) (yField w)
  else if nibbleField w = 0x5#4 then .sub (xField w) (yField w)
  else if nibbleField w = 0x6#4 then .shr (xField w) (yField w)
  else if nibbleField w = 0x7#4 then .subr (xField w) (yField w)
  else if nibbleField w = 0xE#4 then .shl (xField w) (yField w)
  else .unrecognized w

/-- R65, level 3 of family E: the low byte. -/
def resolveFamilyE (w : Word) : Instr :=
  if kkField w = 0x9E#8 then .skp (xField w)
  else if kkField w = 0xA1#8 then .sknp (xField w)
  else .unrecognized w

/-- R65, level 3 of family F: the low byte. -/
def resolveFamilyF (w : Word) : Instr :=
  if kkField w = 0x07#8 then .ldVxDt (xField w)
  else if kkField w = 0x0A#8 then .ldVxK (xField w)
  else if kkField w = 0x15#8 then .ldDtVx (xField w)
  else if kkField w = 0x18#8 then .ldStVx (xField w)
  else if kkField w = 0x1E#8 then .addI (xField w)
  else if kkField w = 0x29#8 then .ldF (xField w)
  else if kkField w = 0x33#8 then .bcd (xField w)
  else if kkField w = 0x55#8 then .stm (xField w)
  else if kkField w = 0x65#8 then .ldm (xField w)
  else .unrecognized w

/-- R65: the resolver, by decreasing specificity: exact match, family, then sub-operation. -/
def resolve (w : Word) : Instr :=
  if w = 0x00E0#16 then .cls
  else if w = 0x00EE#16 then .ret
  else if familyField w = 0x0#4 then .sys (addrField w)
  else if familyField w = 0x1#4 then .jp (addrField w)
  else if familyField w = 0x2#4 then .call (addrField w)
  else if familyField w = 0x3#4 then .seImm (xField w) (kkField w)
  else if familyField w = 0x4#4 then .sneImm (xField w) (kkField w)
  else if familyField w = 0x5#4 then .seReg (xField w) (yField w) (nibbleField w)
  else if familyField w = 0x6#4 then .ldImm (xField w) (kkField w)
  else if familyField w = 0x7#4 then .addImm (xField w) (kkField w)
  else if familyField w = 0x8#4 then resolveFamily8 w
  else if familyField w = 0x9#4 then .sneReg (xField w) (yField w) (nibbleField w)
  else if familyField w = 0xA#4 then .ldI (addrField w)
  else if familyField w = 0xB#4 then .jpV0 (addrField w)
  else if familyField w = 0xC#4 then .rnd (xField w) (kkField w)
  else if familyField w = 0xD#4 then .drw (xField w) (yField w) (nibbleField w)
  else if familyField w = 0xE#4 then resolveFamilyE w
  else resolveFamilyF w

/-- Why a byte string holds no instruction: no word can be refused (R62), so the string is too short for one. -/
inductive DecodeError where
  /-- Fewer than the two bytes every instruction has (R60). -/
  | truncated
deriving DecidableEq, Repr

/-- The instruction at the head of a byte string and the bytes after it. -/
def decodeBytes : List Byte → Except DecodeError (Instr × List Byte)
  | hi :: lo :: rest => .ok (resolve (decode hi lo 0#16).word, rest)
  | [_] => .error .truncated
  | [] => .error .truncated

/-- The decoder on a word numbered as spec/opcode_table.json numbers it: one 16-bit word, bits above `nbits` zero, stored high byte
first (R60). More than 16 bits are no instruction of this machine. -/
def decodeTableWord (nbits w : Nat) : Option Instr :=
  if nbits ≤ 16 then
    let word := BitVec.ofNat 16 (w % 2 ^ nbits)
    match decodeBytes [highByte word, lowByte word] with
    | .ok (i, _) => some i
    | .error _ => none
  else none

/-! ### The opcode map as data -/

/-- A row of R66: the word belongs to the row iff `(word & mask) = pattern` and it belongs to no row before it. -/
structure OpcodeRow where
  mnemonic : String
  mask : Word
  pattern : Word
deriving DecidableEq, Repr

/-- R66, the rows of priority 1 and 2. -/
def opcodeRowsByFamily : List OpcodeRow :=
  [ ⟨"CLS", 0xFFFF#16, 0x00E0#16⟩, ⟨"RET", 0xFFFF#16, 0x00EE#16⟩,
    ⟨"SYS", 0xF000#16, 0x0000#16⟩, ⟨"JP", 0xF000#16, 0x1000#16⟩, ⟨"CALL", 0xF000#16, 0x2000#16⟩,
    ⟨"SE_IMM", 0xF000#16, 0x3000#16⟩, ⟨"SNE_IMM", 0xF000#16, 0x4000#16⟩, ⟨"SE_REG", 0xF000#16, 0x5000#16⟩,
    ⟨"LD_IMM", 0xF000#16, 0x6000#16⟩, ⟨"ADD_IMM", 0xF000#16, 0x7000#16⟩, ⟨"SNE_REG", 0xF000#16, 0x9000#16⟩,
    ⟨"LD_I", 0xF000#16, 0xA000#16⟩, ⟨"JP_V0", 0xF000#16, 0xB000#16⟩, ⟨"RND", 0xF000#16, 0xC000#16⟩,
    ⟨"DRW", 0xF000#16, 0xD000#16⟩ ]

/-- R66, the rows of priority 3. -/
def opcodeRowsBySubKey : List OpcodeRow :=
  [ ⟨"LD_REG", 0xF00F#16, 0x8000#16⟩, ⟨"OR", 0xF00F#16, 0x8001#16⟩, ⟨"AND", 0xF00F#16, 0x8002#16⟩,
    ⟨"XOR", 0xF00F#16, 0x8003#16⟩, ⟨"ADD_REG", 0xF00F#16, 0x8004#16⟩, ⟨"SUB", 0xF00F#16, 0x8005#16⟩,
    ⟨"SHR", 0xF00F#16, 0x8006#16⟩, ⟨"SUBR", 0xF00F#16, 0x8007#16⟩, ⟨"SHL", 0xF00F#16, 0x800E#16⟩,
    ⟨"SKP", 0xF0FF#16, 0xE09E#16⟩, ⟨"SKNP", 0xF0FF#16, 0xE0A1#16⟩,
    ⟨"LD_VX_DT", 0xF0FF#16, 0xF007#16⟩, ⟨"LD_VX_K", 0xF0FF#16, 0xF00A#16⟩, ⟨"LD_DT_VX", 0xF0FF#16, 0xF015#16⟩,
    ⟨"LD_ST_VX", 0xF0FF#16, 0xF018#16⟩, ⟨"ADD_I", 0xF0FF#16, 0xF01E#16⟩, ⟨"LD_F", 0xF0FF#16, 0xF029#16⟩,
    ⟨"BCD", 0xF0FF#16, 0xF033#16⟩, ⟨"STM", 0xF0FF#16, 0xF055#16⟩, ⟨"LDM", 0xF0FF#16, 0xF065#16⟩ ]

/-- R66: the opcode map, by decreasing priority; the last row is the catch-all. -/
def opcodeTable : List OpcodeRow :=
  opcodeRowsByFamily ++ opcodeRowsBySubKey ++ [⟨"UNRECOGNIZED", 0x0000#16, 0x0000#16⟩]

/-- R66: the word has the row's fixed bits. -/
def OpcodeRow.fits (r : OpcodeRow) (w : Word) : Bool := w &&& r.mask == r.pattern

/-- R66: the row a word belongs to. -/
def rowOf (w : Word) : Option OpcodeRow := opcodeTable.find? (fun r => r.fits w)

/-! ### The encoder -/

/-- R63, format `A`: family and address. -/
def wordA (family : Nibble) (nnn : Addr) : Word := family.zeroExtend 16 <<< 12 ||| nnn.zeroExtend 16

/-- R63, format `XK` (and `X`, whose sub-operation byte stands in the place of `kk`). -/
def wordXK (family : Nibble) (x : RegIdx) (kk : Byte) : Word :=
  family.zeroExtend 16 <<< 12 ||| x.zeroExtend 16 <<< 8 ||| kk.zeroExtend 16

/-- R63, formats `XY` and `XYN`. -/
def wordXYN (family : Nibble) (x y : RegIdx) (n : Nibble) : Word :=
  family.zeroExtend 16 <<< 12 ||| x.zeroExtend 16 <<< 8 ||| y.zeroExtend 16 <<< 4 ||| n.zeroExtend 16

/-- R66: the word of an instruction, with the ignored bits it carries. -/
def encode : Instr → Word
  | .cls => 0x00E0#16
  | .ret => 0x00EE#16
  | .sys nnn => wordA 0x0#4 nnn
  | .jp nnn => wordA 0x1#4 nnn
  | .call nnn => wordA 0x2#4 nnn
  | .seImm x kk => wordXK 0x3#4 x kk
  | .sneImm x kk => wordXK 0x4#4 x kk
  | .seReg x y ignored => wordXYN 0x5#4 x y ignored
  | .ldImm x kk => wordXK 0x6#4 x kk
  | .addImm x kk => wordXK 0x7#4 x kk
  | .ldReg x y => wordXYN 0x8#4 x y 0x0#4
  | .orReg x y => wordXYN 0x8#4 x y 0x1#4
  | .andReg x y => wordXYN 0x8#4 x y 0x2#4
  | .xorReg x y => wordXYN 0x8#4 x y 0x3#4
  | .addReg x y => wordXYN 0x8#4 x y 0x4#4
  | .sub x y => wordXYN 0x8#4 x y 0x5#4
  | .shr x ignored => wordXYN 0x8#4 x ignored 0x6#4
  | .subr x y => wordXYN 0x8#4 x y 0x7#4
  | .shl x ignored => wordXYN 0x8#4 x ignored 0xE#4
  | .sneReg x y ignored => wordXYN 0x9#4 x y ignored
  | .ldI nnn => wordA 0xA#4 nnn
  | .jpV0 nnn => wordA 0xB#4 nnn
  | .rnd x kk => wordXK 0xC#4 x kk
  | .drw x y n => wordXYN 0xD#4 x y n
  | .skp x => wordXK 0xE#4 x 0x9E#8
  | .sknp x => wordXK 0xE#4 x 0xA1#8
  | .ldVxDt x => wordXK 0xF#4 x 0x07#8
  | .ldVxK x => wordXK 0xF#4 x 0x0A#8
  | .ldDtVx x => wordXK 0xF#4 x 0x15#8
  | .ldStVx x => wordXK 0xF#4 x 0x18#8
  | .addI x => wordXK 0xF#4 x 0x1E#8
  | .ldF x => wordXK 0xF#4 x 0x29#8
  | .bcd x => wordXK 0xF#4 x 0x33#8
  | .stm x => wordXK 0xF#4 x 0x55#8
  | .ldm x => wordXK 0xF#4 x 0x65#8
  | .unrecognized w => w

end Sys2Proof
end

