-- ==== Sys2Proof/Machine/Bitmap.lean ====
section
/-! DEFINITION. The display bitmap `FB` as data (spec 10_state.md R23, 46_draw.md R140, R143, R144): the set pixels, each a pair
(row, column), in one canonical form; and the renderer's contract `draw_sprite`. -/

namespace Sys2Proof.Machine

/-- The set pixels of the display, as (row, column). -/
abbrev Bitmap := List (Nat × Nat)

/-- R144: every pixel unset. -/
def blankBitmap : Bitmap := []

/-- `FB[r][c] = 1`. -/
def Bitmap.isSet (fb : Bitmap) (r c : Nat) : Bool := fb.contains (r, c)

/-- The order in which set pixels are listed: by row, then by column. -/
def pixelBefore (p q : Nat × Nat) : Bool := decide (p.1 < q.1) || (p.1 == q.1 && decide (p.2 < q.2))

/-- Put a pixel at its place in the list. -/
def Bitmap.place : Bitmap → Nat × Nat → Bitmap
  | [], p => [p]
  | q :: rest, p => if pixelBefore p q then p :: q :: rest else q :: Bitmap.place rest p

/-- R143: `FB[r][c] <- FB[r][c] ^ 1`. -/
def Bitmap.toggle (fb : Bitmap) (r c : Nat) : Bitmap :=
  if Bitmap.isSet fb r c then fb.filter (fun p => p != (r, c)) else Bitmap.place fb (r, c)

/-- The canonical form: pixels in strictly rising order, each on the display. -/
abbrev Bitmap.wf (cfg : Config) (fb : Bitmap) : Prop :=
  fb.Pairwise (fun p q => pixelBefore p q = true) ∧ ∀ p ∈ fb, p.1 < cfg.displayH ∧ p.2 < cfg.displayW

/-- R143: the row of the display that row `r` of a sprite drawn at `vy` lands on. -/
def pixelRow (cfg : Config) (vy : Byte) (r : Nat) : Nat := (vy.toNat + r) % cfg.displayH

/-- R143: the column of the display that column offset `c` of a sprite drawn at `vx` lands on. -/
def pixelColumn (cfg : Config) (vx : Byte) (c : Nat) : Nat := (vx.toNat + c) % cfg.displayW

/-- R141: bit 7 of a sprite byte is column offset 0, bit 0 is column offset 7. -/
def spriteBit (b : Byte) (c : Nat) : Bool := decide (c < 8) && b.getLsbD (7 - c)

/-- The bitmap so far and whether a pixel went from set to unset so far. -/
abbrev Blit := Bitmap × Bool

/-- R143, the body of the inner loop: toggle one pixel if the sprite's bit is 1. -/
def drawPixel (cfg : Config) (vx vy : Byte) (r : Nat) (b : Byte) (acc : Blit) (c : Nat) : Blit :=
  if spriteBit b c then
    (Bitmap.toggle acc.1 (pixelRow cfg vy r) (pixelColumn cfg vx c),
      acc.2 || Bitmap.isSet acc.1 (pixelRow cfg vy r) (pixelColumn cfg vx c))
  else acc

/-- R143, the inner loop: the 8 pixels of one sprite row. -/
def drawRow (cfg : Config) (vx vy : Byte) (r : Nat) (b : Byte) (acc : Blit) : Blit :=
  [0, 1, 2, 3, 4, 5, 6, 7].foldl (drawPixel cfg vx vy r b) acc

/-- R143, the outer loop, from sprite row `r` on. -/
def drawRows (cfg : Config) (vx vy : Byte) : Nat → List Byte → Blit → Blit
  | _, [], acc => acc
  | r, b :: rest, acc => drawRows cfg vx vy (r + 1) rest (drawRow cfg vx vy r b acc)

/-- R143: `draw_sprite(bytes, vx, vy) -> collided`, with the bitmap it leaves. -/
def drawSprite (cfg : Config) (fb : Bitmap) (bytes : List Byte) (vx vy : Byte) : Blit :=
  drawRows cfg vx vy 0 bytes (fb, false)

end Sys2Proof.Machine
end

