-- ==== Sys2Proof/Machine/Defaults.lean ====
section
/-! DEFINITION. The parameters that `State.reset` is booted with. The spec leaves each of them open (00_scope.md R5); the values
here are named in logs 5, 6 and 7, and statements over every state quantify over all of them. -/

namespace Sys2Proof.Machine

/-- The customary font, digits 0 to 7 (93_implementation_defined.md section 2; PRESUMED, log 5). -/
def customaryFontLow : Vector Byte 40 :=
  #v[ 0xF0#8, 0x90#8, 0x90#8, 0x90#8, 0xF0#8,
      0x20#8, 0x60#8, 0x20#8, 0x20#8, 0x70#8,
      0xF0#8, 0x10#8, 0xF0#8, 0x80#8, 0xF0#8,
      0xF0#8, 0x10#8, 0xF0#8, 0x10#8, 0xF0#8,
      0x90#8, 0x90#8, 0xF0#8, 0x10#8, 0x10#8,
      0xF0#8, 0x80#8, 0xF0#8, 0x10#8, 0xF0#8,
      0xF0#8, 0x80#8, 0xF0#8, 0x90#8, 0xF0#8,
      0xF0#8, 0x10#8, 0x20#8, 0x40#8, 0x40#8 ]

/-- The customary font, digits 8 to F (93_implementation_defined.md section 2; PRESUMED, log 5). -/
def customaryFontHigh : Vector Byte 40 :=
  #v[ 0xF0#8, 0x90#8, 0xF0#8, 0x90#8, 0xF0#8,
      0xF0#8, 0x90#8, 0xF0#8, 0x10#8, 0xF0#8,
      0xF0#8, 0x90#8, 0xF0#8, 0x90#8, 0x90#8,
      0xE0#8, 0x90#8, 0xE0#8, 0x90#8, 0xE0#8,
      0xF0#8, 0x80#8, 0x80#8, 0x80#8, 0xF0#8,
      0xE0#8, 0x90#8, 0x90#8, 0x90#8, 0xE0#8,
      0xF0#8, 0x80#8, 0xF0#8, 0x80#8, 0xF0#8,
      0xF0#8, 0x80#8, 0xF0#8, 0x80#8, 0x80#8 ]

/-- `FONT` at reset (PRESUMED, log 5). -/
def customaryFont : Vector Byte 80 := customaryFontLow ++ customaryFontHigh

/-- The parameters at reset: a 64 by 32 display (PRESUMED, log 6), normal mode and the example rates (DESIGN CHOICE, log 7). -/
def defaultConfig : Config where
  displayW := 64
  displayH := 32
  debugMode := false
  font := customaryFont
  instrHz := 500
  frameHz := 60
  wide := by decide
  tall := by decide
  instrHz_pos := by decide
  frameHz_pos := by decide

/-- R27, R232: the reset value of `PC`, where the program image begins. -/
def entryPoint : Word := 0x0200#16

end Sys2Proof.Machine
end

