-- ==== Sys2Proof/Machine/Memory.lean ====
section
/-! DEFINITION. Memory as data (spec 20_memory.md R40, R41): a list of the bytes that differ from the reset contents, in one
canonical form. Reads and writes of bytes; everything wider is built on them in Machine/Ops.lean. -/

namespace Sys2Proof.Machine

/-- The bytes of memory that differ from what an unlisted address reads as. -/
abbrev Memory := List Host.Cell

/-- R40: the size of the one address space. -/
def memorySize : Nat := 4096

/-- R41, R27: what an address that nothing has written reads as, the reset contents with no program: the font table at
`0x000 .. 0x04F`, zero elsewhere (log 11). -/
def unlistedByte (c : Config) (a : Nat) : Byte :=
  if h : a < 80 then c.font[a] else 0x00#8

/-- The byte listed at an address, if one is. -/
def Memory.listed : Memory → Nat → Option Byte
  | [], _ => none
  | cell :: rest, a => if cell.1 = a then some cell.2 else Memory.listed rest a

/-- R48: a read gives the byte most recently written, or the reset content. -/
def Memory.read (c : Config) (m : Memory) (a : Nat) : Byte :=
  (Memory.listed m a).getD (unlistedByte c a)

/-- Put a cell at its place in a rising list. -/
def Memory.place : Memory → Nat → Byte → Memory
  | [], a, b => [(a, b)]
  | cell :: rest, a, b => if a < cell.1 then (a, b) :: cell :: rest else cell :: Memory.place rest a b

/-- Unlist an address. -/
def Memory.drop (m : Memory) (a : Nat) : Memory := m.filter (fun cell => cell.1 != a)

/-- Write one byte, keeping the canonical form: the value an unlisted address reads as is not listed. -/
def Memory.write (c : Config) (m : Memory) (a : Nat) (b : Byte) : Memory :=
  if b = unlistedByte c a then Memory.drop m a else Memory.place (Memory.drop m a) a b

/-- The canonical form: addresses strictly rising and inside the address space, no entry equal to what its address reads as
unlisted. -/
abbrev Memory.wf (c : Config) (m : Memory) : Prop :=
  m.Pairwise (fun p q => p.1 < q.1) ∧ ∀ cell ∈ m, cell.1 < memorySize ∧ cell.2 ≠ unlistedByte c cell.1

end Sys2Proof.Machine
end

