-- ==== Sys2Proof/Machine/State.lean ====
section
/-! DEFINITION. The state of the CORE as plain data (spec 10_state.md), the reasons a step can stop, and the state after reset
(R27). -/

namespace Sys2Proof.Machine

/-- R19: the state of the clock scheduler. -/
inductive Mode where
  | running
  | awaitingManualStep
  | stopped
  | faulted
deriving DecidableEq, Repr

/-- R200: the fatal causes during execution, a closed enumeration by name (D31). -/
inductive Cause where
  /-- `2nnn` with `SP = 16` (R201). -/
  | stackOverflow
  /-- `00EE` with `SP = 0` (R202). -/
  | stackUnderflow
  /-- Fetch with `PC > 0xFFE` (R204). -/
  | fetchOutOfRange
  /-- `Dxyn`, `Fx33`, `Fx55`, `Fx65` reaching past `0xFFF` (R205), with the address recorded. -/
  | memoryOutOfRange (addr : Word)
deriving DecidableEq, Repr

/-- R21: a fault record; the word is absent for a fetch fault. -/
structure FaultRecord where
  cause : Cause
  pc : Word
  word : Option Word
deriving DecidableEq, Repr

/-- R24: a diagnostic on the `Log` port (D13). -/
inductive Diagnostic where
  | sysCall (nnn : Addr) (pc : Word)
  | unrecognized (word : Word) (pc : Word)
deriving DecidableEq, Repr

/-- R24: an event on an output port. -/
inductive Output where
  | clearDisplay
  | drawSprite (bytes : List Byte) (vx vy : Byte)
  | renderFrame
  | log (message : Diagnostic)
deriving DecidableEq, Repr

/-- Why a step has no next state: the scheduler is in a terminal mode (R174, 93_implementation_defined.md U21, U22: stuck). Both are
raised by Machine/Scheduler.lean and by no instruction. -/
inductive Fault where
  /-- `mode = Stopped`: nothing is served ever again. Safe: the machine makes no further step either. -/
  | stopped
  /-- `mode = Faulted`: a fatal fault was taken, its record is in `FR`. Safe: the machine makes no further step either. -/
  | faulted
deriving DecidableEq, Repr

/-- Why an instruction has no meaning. -/
inductive Refusal where
  /-- The instruction is not modelled yet; raised by Dispatch only. Safe. No arm raises it now. -/
  | notModelled (mnemonic : String)
deriving DecidableEq, Repr

/-- The whole state. -/
structure State where
  /-- the parameters, changed by no step (R9) -/
  config : Config
  /-- `V[0] .. V[15]` (R10) -/
  v : Vector Byte 16
  /-- `I` (R12) -/
  i : Word
  /-- `PC` (R13) -/
  pc : Word
  /-- `SP`, the count of occupied slots, 0 to 16 (R14) -/
  sp : Fin 17
  /-- `stack[0] .. stack[15]` (R15) -/
  stack : Vector Word 16
  /-- `DT` (R16) -/
  dt : Byte
  /-- `ST` (R16) -/
  st : Byte
  /-- `input` (R17) -/
  input : Option Key
  /-- `memory` (R18) -/
  mem : Memory
  /-- `KW`, the key-hold latch (R20) -/
  kw : Option RegIdx
  /-- `FR`, the fault record (R21) -/
  fr : Option FaultRecord
  /-- `mode` (R19) -/
  mode : Mode
  /-- `FB`, the display bitmap (R23) -/
  fb : Bitmap
  /-- the FIFO of key reports not yet served, oldest first (R22, R165) -/
  inputQueue : List (Option Key)
  /-- the offers and choices already settled, in order (R22, R164; log 3) -/
  turns : List Turn
  /-- how often the environment has been asked for a turn that was not settled; the model's own (log 3) -/
  events : Nat
  /-- how many random bytes have been drawn; the model's own (log 9) -/
  draws : Nat
  /-- the output trace, oldest first (R24) -/
  trace : List Output
deriving DecidableEq, Repr

/-- R27: the machine right after reset and boot with an empty `PROGRAM`. -/
def State.reset : State where
  config := defaultConfig
  v := Vector.replicate 16 0x00#8
  i := 0x0000#16
  pc := entryPoint
  sp := 0
  stack := Vector.replicate 16 0x0000#16
  dt := 0x00#8
  st := 0x00#8
  input := none
  mem := []
  kw := none
  fr := none
  mode := .running
  fb := []
  inputQueue := []
  turns := []
  events := 0
  draws := 0
  trace := []

end Sys2Proof.Machine
end

