-- ==== Sys2Proof/Machine/Ops.lean ====
section
/-! DEFINITION. The named operations over the state: registers, memory bytes, the return stack, output events, the random draw; the
parts of the step common to every instruction (40_step_cycle.md R83, R85); and the entry to a fatal fault (60_exceptions.md R203).
There is no return from a fault to stand beside it (R212). -/

namespace Sys2Proof.Machine

/-! ### Registers -/

/-- `V[x]` (R10). -/
def State.getV (s : State) (x : RegIdx) : Byte := s.v[x.toNat]'x.isLt

/-- `V[x] <- b` (R10); with `x = 15` an ordinary write of `VF` (R11). -/
def State.setV (s : State) (x : RegIdx) (b : Byte) : State := { s with v := s.v.set x.toNat b x.isLt }

/-- `V[15]`, the flag register (R11). -/
def flagRegister : RegIdx := 0xF#4

/-- `V[15] <- flag` as the value 0 or 1, the full byte written (R110). -/
def State.setFlag (s : State) (flag : Bool) : State :=
  s.setV flagRegister (if flag then 0x01#8 else 0x00#8)

/-- `I <- a`. -/
def State.setI (s : State) (a : Word) : State := { s with i := a }

/-- `PC <- target` (R99: not checked when it is loaded). -/
def State.setPc (s : State) (target : Word) : State := { s with pc := target }

/-- `DT <- b`. -/
def State.setDt (s : State) (b : Byte) : State := { s with dt := b }

/-- `ST <- b`. -/
def State.setSt (s : State) (b : Byte) : State := { s with st := b }

/-- `KW <- hold`. -/
def State.setKw (s : State) (hold : Option RegIdx) : State := { s with kw := hold }

/-- `input <- report`. -/
def State.setInput (s : State) (report : Option Key) : State := { s with input := report }

/-- `mode <- m`. -/
def State.setMode (s : State) (m : Mode) : State := { s with mode := m }

/-- `FR <- record`. -/
def State.setFr (s : State) (record : FaultRecord) : State := { s with fr := some record }

/-- The bitmap becomes `fb`. -/
def State.setFb (s : State) (fb : Bitmap) : State := { s with fb := fb }

/-- Memory becomes `m`. -/
def State.setMem (s : State) (m : Memory) : State := { s with mem := m }

/-- The FIFO of key reports becomes `q`. -/
def State.setInputQueue (s : State) (q : List (Option Key)) : State := { s with inputQueue := q }

/-- The count of free turns taken becomes `n`. -/
def State.setEvents (s : State) (n : Nat) : State := { s with events := n }

/-- The settled turns become `ts`. -/
def State.setTurns (s : State) (ts : List Turn) : State := { s with turns := ts }

/-- `emit e`: one event is appended to the output trace (R6, R24). -/
def State.emit (s : State) (e : Output) : State := { s with trace := s.trace ++ [e] }

/-! ### Memory -/

/-- `MemRead(a, 1)` (R6). -/
def State.readByte (s : State) (a : Nat) : Byte := Memory.read s.config s.mem a

/-- `MemWrite(a, 1, b)` (R6). -/
def State.writeByte (s : State) (a : Nat) (b : Byte) : State := s.setMem (Memory.write s.config s.mem a b)

/-- The bytes at `a .. a + n - 1`, in ascending order (R43). -/
def State.readBytes (s : State) (a : Nat) : Nat → List Byte
  | 0 => []
  | n + 1 => s.readByte a :: s.readBytes (a + 1) n

/-- Write bytes to `a`, `a + 1`, ..., in ascending order (R43). -/
def State.writeBytes : State → Nat → List Byte → State
  | s, _, [] => s
  | s, a, b :: rest => (s.writeByte a b).writeBytes (a + 1) rest

/-- R81: `Fetch(PC) = {memory[PC], memory[PC+1]}`, big-endian, at the moment of the step. -/
def State.fetchedWord (s : State) : Word :=
  (decode (s.readByte s.pc.toNat) (s.readByte (s.pc.toNat + 1)) s.pc).word

/-- The two bytes of a word placed where the next fetch reads them. -/
def State.placeWord (s : State) (w : Word) : State :=
  s.writeBytes s.pc.toNat [highByte w, lowByte w]

/-! ### Register ranges (R134, R135) -/

/-- `V[k]` for `k` from `k` on, `n` of them. -/
def State.registersFrom (s : State) (k : Nat) : Nat → List Byte
  | 0 => []
  | n + 1 => s.getV (BitVec.ofNat 4 k) :: s.registersFrom (k + 1) n

/-- Load bytes into `V[k]`, `V[k+1]`, .... -/
def State.loadRegisters : State → Nat → List Byte → State
  | s, _, [] => s
  | s, k, b :: rest => (s.setV (BitVec.ofNat 4 k) b).loadRegisters (k + 1) rest

/-! ### The return stack (R14, R15) -/

/-- `stack[SP] <- PC; SP <- SP + 1` (R97). -/
def State.push (s : State) (room : s.sp.val < 16) : State :=
  { s with stack := s.stack.set s.sp.val s.pc room, sp := ⟨s.sp.val + 1, by omega⟩ }

/-- `SP <- SP - 1; PC <- stack[SP]` (R95); the popped slot keeps its value (R15). -/
def State.pop (s : State) (occupied : 0 < s.sp.val) : State :=
  { s with sp := ⟨s.sp.val - 1, by omega⟩, pc := s.stack[s.sp.val - 1]'(by omega) }

/-- `stack[k]` (R15). -/
def State.slot (s : State) (k : Fin 16) : Word := s.stack[k.val]'k.isLt

/-! ### The display -/

/-- `FB[r][c] = 1` (R23). -/
def State.pixel (s : State) (r c : Nat) : Bool := Bitmap.isSet s.fb r c

/-! ### The random source (R124) -/

/-- `draw_byte()`: the byte the environment answers to this draw, a free value (log 9). -/
def State.drawnByte (s : State) : Byte := Config.randomByte s.draws

/-- One draw is consumed (R124). -/
def State.consumeDraw (s : State) : State := { s with draws := s.draws + 1 }

/-! ### The parts of the step common to every instruction -/

/-- R83: `PC <- (PC + 2) mod 2^16`, before dispatch. -/
def State.advance (s : State) : State := s.setPc (s.pc + 2#16)

/-- R85: one tick of a timer, floored at zero. -/
def tick (t : Byte) : Byte := if t = 0x00#8 then 0x00#8 else t - 0x01#8

/-- R85: `decrement_timers()`. -/
def State.decrementTimers (s : State) : State := (s.setDt (tick s.dt)).setSt (tick s.st)

/-- R80 part 5: a dispatch that raised no fault ends the step with the timer decrement. -/
def retire (s : State) : Host.Outcome State Fault Refusal := .next s.decrementTimers

/-- R203: entry to a fatal fault. `FR` is written and the mode becomes `Faulted`; no register is saved, no vector taken, no timer
decremented, and `PC` stays as the step left it (log 1). -/
def raise (cause : Cause) (pc : Word) (word : Option Word) (s : State) : Host.Outcome State Fault Refusal :=
  .next ((s.setFr ⟨cause, pc, word⟩).setMode .faulted)

/-- R88, R203: the dispatch of `ins`, fetched at `s`'s `PC`, raises `cause`: of the step only the advance has taken effect. -/
def raiseIn (cause : Cause) (ins : Instr) (s : State) : Host.Outcome State Fault Refusal :=
  raise cause s.pc (some (encode ins)) s.advance

end Sys2Proof.Machine
end

