-- ==== Sys2Proof/Machine/Operands.lean ====
section
/-! DEFINITION. The operand forms: targets of control transfer, the skip, addresses through `I`, the range check, the key test and
the digits of `Fx33`. -/

namespace Sys2Proof.Machine

/-- R64, R96, R97, R130: `nnn` as an absolute byte address, `zext_16(ins.addr)`. -/
def absoluteTarget (nnn : Addr) : Word := nnn.zeroExtend 16

/-- R98: `(zext_16(ins.addr) + zext_16(V[0])) mod 2^16`, not reduced to 12 bits. -/
def offsetTarget (s : State) (nnn : Addr) : Word := absoluteTarget nnn + (s.getV 0x0#4).zeroExtend 16

/-- R100: a taken skip adds 2 on top of the advance; an untaken one leaves `PC`. -/
def State.skipIf (s : State) (taken : Bool) : State := if taken then s.setPc (s.pc + 2#16) else s

/-- R105: the key whose code is `V[x]` is pressed; all 8 bits are compared (log 21). -/
def keyPressed (s : State) (x : RegIdx) : Bool :=
  match s.input with
  | some k => k.zeroExtend 8 == s.getV x
  | none => false

/-- R136: the effective address of element `k` of an access, formed without wrap-around. -/
def elementAddress (s : State) (k : Nat) : Nat := s.i.toNat + k

/-- R46: an access of `len` bytes from `I` passes `0xFFF`; an access of no byte does not. -/
def rangeFaults (s : State) (len : Nat) : Bool := decide (1 ≤ len) && decide (elementAddress s (len - 1) > 0xFFF)

/-- R46: the first address of such a range above `0xFFF` (log 15). -/
def firstBadAddress : Word := 0x1000#16

/-- R133: how many bytes `Fx33` stores. -/
def bcdLength : Nat := 3

/-- R134, R135: `x` inclusive, so `x + 1` registers. -/
def registerCount (x : RegIdx) : Nat := x.toNat + 1

/-- R131: `(I + zext_16(V[x])) & 0x0FFF`. -/
def addToIndex (i : Word) (b : Byte) : Word := (i + b.zeroExtend 16) &&& 0x0FFF#16

/-- R132: `zext_16(V[x]) * 5`, not reduced to the font table (log 22). -/
def glyphAddress (b : Byte) : Word := b.zeroExtend 16 * 5#16

/-- R133: hundreds, tens and units, each a byte 0 to 9. -/
def bcdDigits (b : Byte) : List Byte :=
  [BitVec.ofNat 8 (b.toNat / 100), BitVec.ofNat 8 (b.toNat / 10 % 10), BitVec.ofNat 8 (b.toNat % 10)]

end Sys2Proof.Machine
end

