-- ==== Sys2Proof/Machine/Flags.lean ====
section
/-! DEFINITION. The flag outcomes of the table of 44_alu.md R110, as conditions on the pre-values; `State.setFlag` writes them. -/

namespace Sys2Proof.Machine

/-- R118: the unsigned sum overflows 8 bits. -/
def carryFlag (a b : Byte) : Bool := decide (a.toNat + b.toNat > 255)

/-- R119, R121: the strict comparison `a > b`; equal operands give 0 (conflict C7). -/
def noBorrowFlag (a b : Byte) : Bool := decide (a.toNat > b.toNat)

/-- R120: the bit shifted out at the bottom. -/
def lowBitFlag (a : Byte) : Bool := a.getLsbD 0

/-- R122: the bit shifted out at the top. -/
def highBitFlag (a : Byte) : Bool := a.getLsbD 7

end Sys2Proof.Machine
end

