-- ==== Sys2Proof/Machine/Alu.lean ====
section
/-! DEFINITION. Register load and ALU (44_alu.md). Assignments happen in the order of the spec's pseudocode, which matters when the
flag register is an operand (R111, log 17). -/

namespace Sys2Proof.Machine

/-- R112: `6xkk` LD Vx, kk. -/
def execLdImm (x : RegIdx) (kk : Byte) (s : State) : Host.Outcome State Fault Refusal :=
  retire (s.advance.setV x kk)

/-- R113: `7xkk` ADD Vx, kk; no flag. -/
def execAddImm (x : RegIdx) (kk : Byte) (s : State) : Host.Outcome State Fault Refusal :=
  retire (s.advance.setV x (s.getV x + kk))

/-- R114: `8xy0` LD Vx, Vy. -/
def execLdReg (x y : RegIdx) (s : State) : Host.Outcome State Fault Refusal :=
  retire (s.advance.setV x (s.getV y))

/-- R115: `8xy1` OR Vx, Vy; no flag. -/
def execOrReg (x y : RegIdx) (s : State) : Host.Outcome State Fault Refusal :=
  retire (s.advance.setV x (s.getV x ||| s.getV y))

/-- R116: `8xy2` AND Vx, Vy; no flag. -/
def execAndReg (x y : RegIdx) (s : State) : Host.Outcome State Fault Refusal :=
  retire (s.advance.setV x (s.getV x &&& s.getV y))

/-- R117: `8xy3` XOR Vx, Vy; no flag. -/
def execXorReg (x y : RegIdx) (s : State) : Host.Outcome State Fault Refusal :=
  retire (s.advance.setV x (s.getV x ^^^ s.getV y))

/-- R118: `8xy4` ADD Vx, Vy; the carry is written last. -/
def execAddReg (x y : RegIdx) (s : State) : Host.Outcome State Fault Refusal :=
  retire ((s.advance.setV x (s.getV x + s.getV y)).setFlag (carryFlag (s.getV x) (s.getV y)))

/-- R119: `8xy5` SUB Vx, Vy; the flag is written last. -/
def execSub (x y : RegIdx) (s : State) : Host.Outcome State Fault Refusal :=
  retire ((s.advance.setV x (s.getV x - s.getV y)).setFlag (noBorrowFlag (s.getV x) (s.getV y)))

/-- R120: `8x-6` SHR Vx; the flag is written first and the register is read after it. -/
def execShr (x : RegIdx) (_ignored : Nibble) (s : State) : Host.Outcome State Fault Refusal :=
  let flagged := s.advance.setFlag (lowBitFlag (s.getV x))
  retire (flagged.setV x (flagged.getV x >>> 1))

/-- R121: `8xy7` SUBR Vx, Vy; the destination is `V[y]` and the flag is written last. -/
def execSubr (x y : RegIdx) (s : State) : Host.Outcome State Fault Refusal :=
  retire ((s.advance.setV y (s.getV y - s.getV x)).setFlag (noBorrowFlag (s.getV y) (s.getV x)))

/-- R122: `8x-E` SHL Vx; the flag is written first and the register is read after it. -/
def execShl (x : RegIdx) (_ignored : Nibble) (s : State) : Host.Outcome State Fault Refusal :=
  let flagged := s.advance.setFlag (highBitFlag (s.getV x))
  retire (flagged.setV x (flagged.getV x <<< 1))

/-- R123: `Cxkk` RND Vx, kk; one draw is consumed. -/
def execRnd (x : RegIdx) (kk : Byte) (s : State) : Host.Outcome State Fault Refusal :=
  retire (s.advance.consumeDraw.setV x (s.drawnByte &&& kk))

end Sys2Proof.Machine
end

