-- ==== Sys2Proof/Machine/Control.lean ====
section
/-! DEFINITION. Control transfer (42_control.md). -/

namespace Sys2Proof.Machine

/-- R95: `00EE` RET. -/
def execRet (s : State) : Host.Outcome State Fault Refusal :=
  if h : s.sp.val = 0 then raiseIn .stackUnderflow .ret s
  else retire (s.advance.pop (Nat.pos_of_ne_zero h))

/-- R96: `1nnn` JP. -/
def execJp (nnn : Addr) (s : State) : Host.Outcome State Fault Refusal :=
  retire (s.advance.setPc (absoluteTarget nnn))

/-- R97: `2nnn` CALL; the advanced `PC` is pushed. -/
def execCall (nnn : Addr) (s : State) : Host.Outcome State Fault Refusal :=
  if h : s.sp.val = 16 then raiseIn .stackOverflow (.call nnn) s
  else retire ((s.advance.push (Nat.lt_of_le_of_ne (Nat.le_of_lt_succ s.sp.isLt) h)).setPc (absoluteTarget nnn))

/-- R98: `Bnnn` JP V0. -/
def execJpV0 (nnn : Addr) (s : State) : Host.Outcome State Fault Refusal :=
  retire (s.advance.setPc (offsetTarget s nnn))

end Sys2Proof.Machine
end

