-- ==== Sys2Proof/Machine/Draw.lean ====
section
/-! DEFINITION. Sprite drawing (46_draw.md). -/

namespace Sys2Proof.Machine

/-- R142: `Dxyn` DRW Vx, Vy, n. The position is read before the flag is written. -/
def execDrw (x y : RegIdx) (n : Nibble) (s : State) : Host.Outcome State Fault Refusal :=
  if rangeFaults s n.toNat then raiseIn (.memoryOutOfRange firstBadAddress) (.drw x y n) s
  else
    let bytes := s.readBytes (elementAddress s 0) n.toNat
    let blit := drawSprite s.config s.fb bytes (s.getV x) (s.getV y)
    retire (((s.advance.emit (.drawSprite bytes (s.getV x) (s.getV y))).setFb blit.1).setFlag blit.2)

end Sys2Proof.Machine
end

