-- ==== Sys2Proof/Machine/IndexMemory.lean ====
section
/-! DEFINITION. Address register and memory instructions (45_index_memory.md). `I` is left as it was by the memory instructions
(R136); the whole range is checked before any byte or register is written (R46, log 15). -/

namespace Sys2Proof.Machine

/-- R130: `Annn` LD I, nnn. -/
def execLdI (nnn : Addr) (s : State) : Host.Outcome State Fault Refusal :=
  retire (s.advance.setI (absoluteTarget nnn))

/-- R131: `Fx1E` ADD I, Vx; 12-bit wrap, no flag. -/
def execAddI (x : RegIdx) (s : State) : Host.Outcome State Fault Refusal :=
  retire (s.advance.setI (addToIndex s.i (s.getV x)))

/-- R132: `Fx29` LD F, Vx. -/
def execLdF (x : RegIdx) (s : State) : Host.Outcome State Fault Refusal :=
  retire (s.advance.setI (glyphAddress (s.getV x)))

/-- R133: `Fx33` BCD Vx. -/
def execBcd (x : RegIdx) (s : State) : Host.Outcome State Fault Refusal :=
  if rangeFaults s bcdLength then raiseIn (.memoryOutOfRange firstBadAddress) (.bcd x) s
  else retire (s.advance.writeBytes (elementAddress s 0) (bcdDigits (s.getV x)))

/-- R134: `Fx55` STM Vx. -/
def execStm (x : RegIdx) (s : State) : Host.Outcome State Fault Refusal :=
  if rangeFaults s (registerCount x) then raiseIn (.memoryOutOfRange firstBadAddress) (.stm x) s
  else retire (s.advance.writeBytes (elementAddress s 0) (s.registersFrom 0 (registerCount x)))

/-- R135: `Fx65` LDM Vx. -/
def execLdm (x : RegIdx) (s : State) : Host.Outcome State Fault Refusal :=
  if rangeFaults s (registerCount x) then raiseIn (.memoryOutOfRange firstBadAddress) (.ldm x) s
  else retire (s.advance.loadRegisters 0 (s.readBytes (elementAddress s 0) (registerCount x)))

end Sys2Proof.Machine
end

