-- ==== Sys2Proof/Machine/Skip.lean ====
section
/-! DEFINITION. Conditional skips (43_skip.md). -/

namespace Sys2Proof.Machine

/-- R101: `3xkk` SE Vx, kk. -/
def execSeImm (x : RegIdx) (kk : Byte) (s : State) : Host.Outcome State Fault Refusal :=
  retire (s.advance.skipIf (s.getV x == kk))

/-- R102: `4xkk` SNE Vx, kk. -/
def execSneImm (x : RegIdx) (kk : Byte) (s : State) : Host.Outcome State Fault Refusal :=
  retire (s.advance.skipIf (s.getV x != kk))

/-- R103: `5xy-` SE Vx, Vy; the low nibble is not examined (log 16). -/
def execSeReg (x y : RegIdx) (_ignored : Nibble) (s : State) : Host.Outcome State Fault Refusal :=
  retire (s.advance.skipIf (s.getV x == s.getV y))

/-- R104: `9xy-` SNE Vx, Vy; the low nibble is not examined (log 16). -/
def execSneReg (x y : RegIdx) (_ignored : Nibble) (s : State) : Host.Outcome State Fault Refusal :=
  retire (s.advance.skipIf (s.getV x != s.getV y))

/-- R105: `Ex9E` SKP Vx. -/
def execSkp (x : RegIdx) (s : State) : Host.Outcome State Fault Refusal :=
  retire (s.advance.skipIf (keyPressed s x))

/-- R106: `ExA1` SKNP Vx, the complement of `SKP`. -/
def execSknp (x : RegIdx) (s : State) : Host.Outcome State Fault Refusal :=
  retire (s.advance.skipIf (!keyPressed s x))

end Sys2Proof.Machine
end

