-- ==== Sys2Proof/Machine/System.lean ====
section
/-! DEFINITION. The system instructions (41_system.md) and the catch-all class (40_step_cycle.md R86). Every meaning is parts 3 to 5
of the step (R80): the advance, the dispatch, the timer decrement; `s` is the state in which `PC` is still the fetch address. -/

namespace Sys2Proof.Machine

/-- R90: `00E0` CLS. `VF` keeps its value (log 29). -/
def execCls (s : State) : Host.Outcome State Fault Refusal :=
  retire ((s.advance.emit .clearDisplay).setFb blankBitmap)

/-- R91: `0nnn` SYS. -/
def execSys (nnn : Addr) (s : State) : Host.Outcome State Fault Refusal :=
  retire (s.advance.emit (.log (.sysCall nnn s.pc)))

/-- R86: UNRECOGNIZED, logged and continued. -/
def execUnrecognized (word : Word) (s : State) : Host.Outcome State Fault Refusal :=
  retire (s.advance.emit (.log (.unrecognized word s.pc)))

end Sys2Proof.Machine
end

