-- ==== Sys2Proof/Machine/TimerKey.lean ====
section
/-! DEFINITION. Timer and key-wait instructions (47_timer_key.md). The decrement of the same step comes after them (R87). -/

namespace Sys2Proof.Machine

/-- R150: `Fx07` LD Vx, DT; the value before this step's decrement. -/
def execLdVxDt (x : RegIdx) (s : State) : Host.Outcome State Fault Refusal :=
  retire (s.advance.setV x s.dt)

/-- R152: `Fx0A` LD Vx, K: the executor's part, which only starts the key hold (log 19). -/
def execLdVxK (x : RegIdx) (s : State) : Host.Outcome State Fault Refusal :=
  retire (s.advance.setKw (some x))

/-- R151: `Fx15` LD DT, Vx. -/
def execLdDtVx (x : RegIdx) (s : State) : Host.Outcome State Fault Refusal :=
  retire (s.advance.setDt (s.getV x))

/-- R153: `Fx18` LD ST, Vx. -/
def execLdStVx (x : RegIdx) (s : State) : Host.Outcome State Fault Refusal :=
  retire (s.advance.setSt (s.getV x))

end Sys2Proof.Machine
end

