-- ==== Sys2Proof/Machine/Scheduler.lean ====
section
/-! DEFINITION. The clock scheduler (48_scheduler.md): the turns, the four handlers and the completion of a key hold. Every handler
is one atomic transition (R166). -/

namespace Sys2Proof.Machine

/-- R163, R174: nothing is served in `Stopped` and `Faulted`. -/
def Mode.terminal : Mode → Bool
  | .running | .awaitingManualStep => false
  | .stopped | .faulted => true

/-- R27, R161: the mode a machine with these parameters rests in when no end has come. -/
def restingMode (c : Config) : Mode := if c.debugMode then .awaitingManualStep else .running

/-- The turn taken next (log 3): the first of the settled ones; where none is settled, whatever the environment and the arbiter answer,
in every mode (R8, R164). -/
def State.nextTurn (s : State) : Option Turn :=
  match s.turns with
  | t :: _ => some t
  | [] => Config.environmentTurn s.events

/-- The turn taken is over: the settled one is used up, or the environment has been asked once more. -/
def State.dropTurn (s : State) : State :=
  (s.setTurns s.turns.tail).setEvents (if s.turns.isEmpty then s.events + 1 else s.events)

/-- R168, R80: `H_instr`, one step: fetch, decode, then parts 3 to 5. A fetch past `0xFFE` changes nothing but `FR` and `mode`
(R45, R204). -/
def handleInstr (s : State) : Host.Outcome State Fault Refusal :=
  if s.pc.toNat > 0xFFE then raise .fetchOutOfRange s.pc none s
  else exec (resolve s.fetchedWord) s

/-- R169: `H_frame`; no core state changes. -/
def handleFrame (s : State) : State := s.emit .renderFrame

/-- R170, R172: `H_input(v)`; a press completes a pending key hold in the same transition. -/
def handleInput (report : Option Key) (s : State) : State :=
  match s.kw, report with
  | some x, some k => ((s.setInput report).setV x (k.zeroExtend 8)).setKw none
  | some _, none => s.setInput report
  | none, _ => s.setInput report

/-- R171: `H_quit`; a pending key hold is abandoned, `KW` stays (log 31). -/
def handleQuit (s : State) : State := s.setMode .stopped

/-- R163, R165: serve a turn, the mode being no terminal one. An instruction-ready event during a key hold and an input-ready turn
with an empty FIFO are not served: nothing changes (log 19, log 3). -/
def serve (t : Turn) (s : State) : Host.Outcome State Fault Refusal :=
  match t with
  | .instrReady => if s.kw.isSome then .next s else handleInstr s
  | .frameReady => .next (handleFrame s)
  | .inputReady =>
    match s.inputQueue with
    | [] => .next s
    | report :: rest => .next (handleInput report (s.setInputQueue rest))
  | .quitReady => .next (handleQuit s)
  | .keyReport report => .next (s.setInputQueue (s.inputQueue ++ [report]))

/-- R160: one iteration of the scheduler's loop. A terminal mode has no next state (log 2); where no source is
ready the machine rests and the environment is asked again. -/
def schedulerStep (s : State) : Host.Outcome State Fault Refusal :=
  match s.mode with
  | .stopped => .fault .stopped
  | .faulted => .fault .faulted
  | .running | .awaitingManualStep =>
    match s.nextTurn with
    | none => .next s.dropTurn
    | some t => serve t s.dropTurn

/-- The word an instruction of the opcode table is, its bits above `nbits` zero. -/
def tableWord (nbits w : Nat) : Word := BitVec.ofNat 16 (w % 2 ^ nbits)

/-- `s` made ready to fetch: a mode in which instructions are served, no key hold, the fetch inside memory, and an instruction-ready
event settled as the next turn. Whatever already is so stays as it is. -/
def State.readyToFetch (s : State) : State :=
  let running := if s.mode.terminal then s.setMode (restingMode s.config) else s
  let free := running.setKw none
  let inside := if free.pc.toNat > 0xFFE then free.setPc entryPoint else free
  if inside.turns.head? = some .instrReady then inside else inside.setTurns (.instrReady :: inside.turns)

end Sys2Proof.Machine
end

