-- ==== Sys2Proof/Machine/Boot.lean ====
section
/-! DEFINITION. Boot (70_reset_and_hazards.md R232 to R234) and the read-only snapshot (10_state.md R24). -/

namespace Sys2Proof.Machine

/-- R207: the pre-start errors inside the core; `IOError` is the loader's. -/
inductive BootError where
  /-- R233: the font table cannot be produced. -/
  | initError
  /-- R234: `0x200 + len(PROGRAM) > 4096`. -/
  | programTooLarge
deriving DecidableEq, Repr

/-- R232 step 1, R233: every element at its reset value (R27) and the font table in place; `FONT` must be exactly 80 bytes. -/
def loadSprites (c : Config) (font : List Byte) : Except BootError State :=
  if h : font.length = 80 then
    .ok { State.reset with config := { c with font := ⟨font.toArray, by simpa using h⟩ } }
  else .error .initError

/-- R232 step 2, R234: `memory[0x200 + i] <- PROGRAM[i]`. -/
def loadProgram (program : List Byte) (s : State) : Except BootError State :=
  if entryPoint.toNat + program.length > memorySize then .error .programTooLarge
  else .ok (s.writeBytes entryPoint.toNat program)

/-- R232: the boot sequence; a violated precondition means no machine (R207). `c`'s own font is replaced by `font`. -/
def boot (c : Config) (font program : List Byte) : Except BootError State :=
  match loadSprites c font with
  | .error e => .error e
  | .ok s =>
    match loadProgram program s with
    | .error e => .error e
    | .ok loaded => .ok (loaded.setMode (restingMode c))

/-- R24: what the renderer may read between handlers (R51, R175). -/
structure Snapshot where
  memory : List Byte
  v : Vector Byte 16
  i : Word
  pc : Word
  sp : Fin 17
  stack : Vector Word 16
  dt : Byte
  st : Byte
  input : Option Key
deriving DecidableEq, Repr

/-- R24, R175: the snapshot port, a view of the state between two handlers (log 30). -/
def State.snapshot (s : State) : Snapshot where
  memory := s.readBytes 0 memorySize
  v := s.v
  i := s.i
  pc := s.pc
  sp := s.sp
  stack := s.stack
  dt := s.dt
  st := s.st
  input := s.input

end Sys2Proof.Machine
end

