-- ==== Sys2Proof/Safety.lean ====
section
/-! DEFINITION. What claims are stated in: the components of the state and what it means that one is unchanged, the ways an
instruction ends, the conditions of the fatal faults, the pixels a sprite covers, and the machine's invariant. -/

namespace Sys2Proof.Machine

/-! ### Components and frames -/

/-- A component of the state, as fine as a claim needs it: one register, one stack slot, one byte of memory, one pixel. -/
inductive Component where
  | reg (x : RegIdx)
  | i
  | pc
  | sp
  | slot (k : Fin 16)
  | dt
  | st
  | input
  | byte (a : Nat)
  | kw
  | fr
  | mode
  | pixel (r c : Nat)
  | inputQueue
  | turns
  | events
  | draws
  | trace
  | config
deriving DecidableEq, Repr

/-- The component has the same value in both states, read through the model's accessors. -/
def Component.same : Component → State → State → Prop
  | .reg x, s, t => t.getV x = s.getV x
  | .i, s, t => t.i = s.i
  | .pc, s, t => t.pc = s.pc
  | .sp, s, t => t.sp = s.sp
  | .slot k, s, t => t.slot k = s.slot k
  | .dt, s, t => t.dt = s.dt
  | .st, s, t => t.st = s.st
  | .input, s, t => t.input = s.input
  | .byte a, s, t => t.readByte a = s.readByte a
  | .kw, s, t => t.kw = s.kw
  | .fr, s, t => t.fr = s.fr
  | .mode, s, t => t.mode = s.mode
  | .pixel r c, s, t => t.pixel r c = s.pixel r c
  | .inputQueue, s, t => t.inputQueue = s.inputQueue
  | .turns, s, t => t.turns = s.turns
  | .events, s, t => t.events = s.events
  | .draws, s, t => t.draws = s.draws
  | .trace, s, t => t.trace = s.trace
  | .config, s, t => t.config = s.config

/-- The frame: every component outside `touched` is unchanged. -/
def Unchanged (touched : Component → Prop) (s t : State) : Prop := ∀ c, ¬ touched c → c.same s t

/-- `i` runs to its end in `s`: the step has a next state, with `PC` at `target`, the timers at `dt` and `st`, the frame outside
`touched` (the program counter and the timers apart), and `post` of the next state. -/
def RunsWith (i : Instr) (s : State) (target : Word) (dt st : Nat) (touched : Component → Prop) (post : State → Prop) : Prop :=
  ∃ t, exec i s = .next t ∧ t.pc = target ∧ t.dt.toNat = dt ∧ t.st.toNat = st
    ∧ Unchanged (fun c => touched c ∨ c = .pc ∨ c = .dt ∨ c = .st) s t ∧ post t

/-- `RunsWith`, each timer one lower, floored at zero (R85). -/
def Runs (i : Instr) (s : State) (target : Word) (touched : Component → Prop) (post : State → Prop) : Prop :=
  RunsWith i s target (s.dt.toNat - 1) (s.st.toNat - 1) touched post

/-- Nothing beyond the program counter and the timers. -/
def nothing : Component → Prop := fun _ => False

/-- No further condition. -/
def anyState : State → Prop := fun _ => True

/-- R203, R88: `i` takes the fatal fault `cause`: `FR` written, mode `Faulted`, `PC` advanced, all else as before, the timers too. -/
def TakesFault (i : Instr) (s : State) (cause : Cause) : Prop :=
  ∃ t, exec i s = .next t ∧ t.pc = s.pc + 2#16 ∧ t.mode = .faulted ∧ t.fr = some ⟨cause, s.pc, some (encode i)⟩
    ∧ Unchanged (fun c => c = .pc ∨ c = .mode ∨ c = .fr) s t

/-! ### The conditions of the fatal faults -/

/-- R200: the fault condition the dispatch of `i` meets in `s`, if any (R210: at most one). -/
def faultCause (i : Instr) (s : State) : Option Cause :=
  match i with
  | .call _ => if s.sp.val = 16 then some .stackOverflow else none
  | .ret => if s.sp.val = 0 then some .stackUnderflow else none
  | .drw _ _ n => if 1 ≤ n.toNat ∧ s.i.toNat + n.toNat - 1 > 0xFFF then some (.memoryOutOfRange 0x1000#16) else none
  | .bcd _ => if s.i.toNat + 2 > 0xFFF then some (.memoryOutOfRange 0x1000#16) else none
  | .stm x => if s.i.toNat + x.toNat > 0xFFF then some (.memoryOutOfRange 0x1000#16) else none
  | .ldm x => if s.i.toNat + x.toNat > 0xFFF then some (.memoryOutOfRange 0x1000#16) else none
  | .cls | .sys _ | .jp _ | .seImm _ _ | .sneImm _ _ | .seReg _ _ _ | .ldImm _ _ | .addImm _ _ | .ldReg _ _ | .orReg _ _
  | .andReg _ _ | .xorReg _ _ | .addReg _ _ | .sub _ _ | .shr _ _ | .subr _ _ | .shl _ _ | .sneReg _ _ _ | .ldI _ | .jpV0 _
  | .rnd _ _ | .skp _ | .sknp _ | .ldVxDt _ | .ldVxK _ | .ldDtVx _ | .ldStVx _ | .addI _ | .ldF _ | .unrecognized _ => none

/-- R87: the value of `DT` that this step's decrement starts from. -/
def delayBeforeTick (i : Instr) (s : State) : Byte :=
  match i with
  | .ldDtVx x => s.getV x
  | _ => s.dt

/-- R87: the value of `ST` that this step's decrement starts from. -/
def soundBeforeTick (i : Instr) (s : State) : Byte :=
  match i with
  | .ldStVx x => s.getV x
  | _ => s.st

/-- Executing instructions one after another, the fetch left out. -/
def execAll : List Instr → State → Host.Outcome State Fault Refusal
  | [], s => .next s
  | i :: rest, s =>
    match exec i s with
    | .next t => execAll rest t
    | .fault r => .fault r
    | .refused r => .refused r

/-- R11: the instruction defines a flag outcome or names register 15 as an ordinary destination that its own step writes. `FF0A`, which
R11 lists too, has register 15 written when the key hold ends, in a later step (D10, log 19). -/
def mayWriteFlag (i : Instr) : Bool :=
  match i with
  | .addReg _ _ | .sub _ _ | .shr _ _ | .subr _ _ | .shl _ _ | .drw _ _ _ => true
  | .ldImm x _ | .addImm x _ | .ldReg x _ | .orReg x _ | .andReg x _ | .xorReg x _ | .rnd x _ | .ldVxDt x | .ldm x =>
    x == flagRegister
  | _ => false

/-! ### Sprites -/

/-- R143: the sprite `bytes` drawn at `(vx, vy)` has a 1 bit on the pixel `(r, c)`, after wrap-around. -/
def SpriteCovers (cfg : Config) (bytes : List Byte) (vx vy : Byte) (r c : Nat) : Prop :=
  ∃ (k j : Nat) (b : Byte), bytes[k]? = some b ∧ j < 8 ∧ b.getLsbD (7 - j) = true
    ∧ r = (vy.toNat + k) % cfg.displayH ∧ c = (vx.toNat + j) % cfg.displayW

/-- R141: the bytes of an `n`-row sprite at `I`. -/
def spriteBytes (s : State) (n : Nibble) : List Byte :=
  (List.range n.toNat).map (fun k => s.readByte (elementAddress s k))

/-! ### Serving instructions -/

/-- R163: an instruction-ready event is the next turn and is served. -/
def ServesInstruction (s : State) : Prop :=
  s.mode.terminal = false ∧ s.kw = none ∧ s.nextTurn = some .instrReady

/-- The state without its output trace: what the core can act on. -/
def State.core (s : State) : State := { s with trace := [] }

/-! ### Safe runs and the invariant -/

/-- R203: no fatal fault has been recorded; a claim about the end of a program takes this as a premise or proves it. -/
def State.NoFault (s : State) : Prop := s.fr = none

/-- R26, R89: what holds after reset and after every completed handler. -/
structure State.Inv (s : State) : Prop where
  /-- R26: `0 <= I <= 0xFFF`. -/
  index : s.i.toNat ≤ 0xFFF
  /-- R89: `PC <= 0x10FE`. -/
  counter : s.pc.toNat ≤ 0x10FE
  /-- R89: an occupied slot holds a value a `2nnn` pushed, at most `0x1000`. -/
  slots : ∀ k : Fin 16, k.val < s.sp.val → (s.slot k).toNat ≤ 0x1000
  /-- Memory is in canonical form. -/
  memory : Memory.wf s.config s.mem
  /-- The bitmap is in canonical form and inside the display. -/
  bitmap : Bitmap.wf s.config s.fb
  /-- R21, R203: a fault is recorded exactly in `Faulted`. -/
  faultRecord : s.mode = .faulted ↔ s.fr.isSome = true
  /-- R161: until the end comes the machine is in the mode of operation fixed at reset. -/
  operation : s.mode.terminal = false → s.mode = restingMode s.config

end Sys2Proof.Machine
end

