-- ==== Sys2Proof/Certificates/Slice0/Obligations.lean ====
section
/-! DEFINITION. The statements for the provers. Each is about every state and every operand unless it says otherwise; the parameters
(display size, font, debug mode) are part of the state, so it is about every value of them too. Where a clause rests on a decision of
the spec's own (D<n> of 92_eei_decisions.md) or of the model's (log <n>), the docstring says so. -/

open Sys2Proof Sys2Proof.Machine

/-! ### Encoding -/

/-- Every well-formed instruction is decoded back from its own two bytes, with every operand, whatever follows it. That the ignored
nibbles are operands is the model's choice (log 16). -/
def Obligations.DecodeOfEncodeIsTheInstruction : Prop :=
  ∀ (i : Instr) (pc : Word) (rest : List Byte), i.wellFormed = true →
    resolve (decode (highByte (encode i)) (lowByte (encode i)) pc).word = i
      ∧ decodeBytes (highByte (encode i) :: lowByte (encode i) :: rest) = .ok (i, rest)

/-- Every word decodes to a well-formed instruction that encodes back to the very word: decoding is total and drops no bit. That the
ignored nibbles are operands is the model's choice (log 16). -/
def Obligations.EncodeOfDecodeIsTheWord : Prop :=
  ∀ w : Word, (resolve w).wellFormed = true ∧ encode (resolve w) = w

/-- The resolver of R65 gives every word the class of the first row of R66's table that it fits, and apart from the catch-all only
`SYS` overlaps other rows. The mnemonics are the spec's labels (D15); the low nibble of families 5 and 9 is ignored (D5). -/
def Obligations.ResolverFollowsTheOpcodeMap : Prop :=
  (∀ w : Word, (rowOf w).map (·.mnemonic) = some (resolve w).mnemonic)
    ∧ ∀ w : Word, ∀ p ∈ opcodeTable, ∀ q ∈ opcodeTable, p.fits w = true → q.fits w = true → p ≠ q →
        p.mnemonic = "SYS" ∨ q.mnemonic = "SYS" ∨ p.mnemonic = "UNRECOGNIZED" ∨ q.mnemonic = "UNRECOGNIZED"

/-- R61: the fields the decoder extracts from a byte pair, and the address carried through unchanged. -/
def Obligations.DecoderExtractsTheSixFields : Prop :=
  ∀ (hi lo : Byte) (pc : Word),
    (decode hi lo pc).word = hi.zeroExtend 16 <<< 8 ||| lo.zeroExtend 16
      ∧ (decode hi lo pc).addr.zeroExtend 16 = (decode hi lo pc).word &&& 0x0FFF#16
      ∧ (decode hi lo pc).x.zeroExtend 8 = hi &&& 0x0F#8
      ∧ (decode hi lo pc).y.zeroExtend 8 = (lo &&& 0xF0#8) >>> 4
      ∧ (decode hi lo pc).kk = lo
      ∧ (decode hi lo pc).nibble.zeroExtend 8 = lo &&& 0x0F#8
      ∧ (familyField (decode hi lo pc).word).toNat = (decode hi lo pc).word.toNat / 4096
      ∧ (decode hi lo pc).pc = pc

/-- R67, in the integers: which words are unrecognized, family by family (the spec derives the list from R65). That no word of
families 5 and 9 is among them, whatever its low nibble, is D5 (log 16). -/
def Obligations.UnrecognizedWordsAreTheListed : Prop :=
  ∀ w : Word, resolve w = .unrecognized w ↔
    (w.toNat / 4096 = 8 ∧ w.toNat % 16 ∈ [8, 9, 10, 11, 12, 13, 15])
      ∨ (w.toNat / 4096 = 14 ∧ w.toNat % 256 ∉ [0x9E, 0xA1])
      ∨ (w.toNat / 4096 = 15 ∧ w.toNat % 256 ∉ [0x07, 0x0A, 0x15, 0x18, 0x1E, 0x29, 0x33, 0x55, 0x65])

/-- Fourteen words of families 0, 1, 5, 8, A, C, D, E and F, written out from the encodings of R63 and R66, decode to what they
stand for. That the low nibble of `0x5121` does not matter is D5 (log 16). -/
def Obligations.SampleWordsDecode : Prop :=
  resolve 0x00E0#16 = .cls ∧ resolve 0x00EE#16 = .ret ∧ resolve 0x00E1#16 = .sys 0x0E1#12
    ∧ resolve 0x10E0#16 = .jp 0x0E0#12 ∧ resolve 0x5121#16 = .seReg 1#4 2#4 1#4 ∧ resolve 0x8124#16 = .addReg 1#4 2#4
    ∧ resolve 0x8AB6#16 = .shr 0xA#4 0xB#4 ∧ resolve 0x8AB8#16 = .unrecognized 0x8AB8#16
    ∧ resolve 0xD125#16 = .drw 1#4 2#4 5#4 ∧ resolve 0xE1A1#16 = .sknp 1#4 ∧ resolve 0xF155#16 = .stm 1#4
    ∧ resolve 0xC30F#16 = .rnd 3#4 0x0F#8 ∧ resolve 0xF30A#16 = .ldVxK 3#4 ∧ resolve 0xA300#16 = .ldI 0x300#12

/-! ### The step -/

/-- R80, R168: when an instruction-ready event is served and the two bytes at `PC` decode to `i`, the step is `exec i`, and all that
the step adds around it is that the turn is used up (settled turns and free ones are the model's form of the environment, log
3). No alignment is asked of `PC` (R44, D2); the byte at `PC` is the high byte (R42, D1). -/
def Obligations.StepRunsTheDecodedInstruction : Prop :=
  ∀ (s : State) (i : Instr), ServesInstruction s → s.pc.toNat ≤ 0xFFE →
    decodeBytes [s.readByte s.pc.toNat, s.readByte (s.pc.toNat + 1)] = .ok (i, []) →
      step s = exec i s.dropTurn ∧ Unchanged (fun c => c = .turns ∨ c = .events) s s.dropTurn

/-- A word placed at the program counter is the word the very next step fetches and runs, high byte first (R42, R81, R52), from
every state (`withFetchWord` is the model's stand-in for loading an instruction, log 8). The byte order is D1 (log 12). -/
def Obligations.PlacedWordRunsNext : Prop :=
  ∀ (s : State) (w : Word),
    step (s.withFetchWord 16 w.toNat) = exec (resolve w) (s.withFetchWord 16 w.toNat).dropTurn
      ∧ ServesInstruction (s.withFetchWord 16 w.toNat)

/-- R204, R45 (D3), R203 (D12): a fetch with `PC > 0xFFE` takes `FetchOutOfRange`; nothing else changes, not even `PC`, and the
timers are not decremented. (Logs 14 and 1.) -/
def Obligations.FetchPastMemoryFaults : Prop :=
  ∀ s : State, ServesInstruction s → s.pc.toNat > 0xFFE →
    ∃ t, step s = .next t ∧ t.mode = .faulted ∧ t.fr = some ⟨.fetchOutOfRange, s.pc, none⟩
      ∧ Unchanged (fun c => c = .turns ∨ c = .events ∨ c = .mode ∨ c = .fr) s t

/-- R200, R88, R203 (D4, D12, D31; logs 15, 1, 32), R210: every instruction always has a next state; it is the entry to a fatal
fault exactly when the class's one fault condition holds, with the cause, the fetch address and the word recorded and nothing
else changed but the advance; otherwise mode and fault record are as before. -/
def Obligations.ExecutionFaultsExactlyOnItsCondition : Prop :=
  ∀ (i : Instr) (s : State),
    (∀ cause, faultCause i s = some cause → TakesFault i s cause)
      ∧ (faultCause i s = none → ∃ t, exec i s = .next t ∧ t.mode = s.mode ∧ t.fr = s.fr)

/-- R85: `DT` and `ST` are decremented by one, floored at zero, once per executed instruction, whatever it is, after its dispatch;
not by a dispatch that faults, and by no other event; so a run of `N` instructions that all complete, none of which writes `DT`,
takes `min(DT, N)` from it. That a faulting dispatch has a next state in which the timers stand is R88 and R203 (D12, log 1);
when a memory access faults is D4 (log 15). -/
def Obligations.TimersTickOncePerInstruction : Prop :=
  (∀ (i : Instr) (s : State), faultCause i s = none →
      ∃ t, exec i s = .next t ∧ t.dt.toNat = (delayBeforeTick i s).toNat - 1
        ∧ t.st.toNat = (soundBeforeTick i s).toNat - 1)
    ∧ (∀ (i : Instr) (s : State), faultCause i s ≠ none → ∃ t, exec i s = .next t ∧ t.dt = s.dt ∧ t.st = s.st)
    ∧ (∀ (turn : Turn) (s : State), turn ≠ .instrReady → ∃ t, serve turn s = .next t ∧ t.dt = s.dt ∧ t.st = s.st)
    ∧ ∀ (is : List Instr) (s t : State), execAll is s = .next t → t.mode ≠ .faulted → (∀ x, .ldDtVx x ∉ is) →
        t.dt.toNat = s.dt.toNat - min s.dt.toNat is.length

/-! ### System instructions and the catch-all -/

/-- R86, R206: an unrecognized word is logged and continued: its whole effect is the advance, one `Log` event and the timer
decrement; no fault is recorded and the mode stays. What the `Log` event carries is D13; that it is appended to a trace in the
state is log 24. -/
def Obligations.UnrecognizedWordIsLoggedAndContinued : Prop :=
  ∀ (w : Word) (s : State), unrecognizedWord w = true →
    resolve w = .unrecognized w
      ∧ Runs (.unrecognized w) s (s.pc + 2#16) (· = .trace)
          (fun t => t.trace = s.trace ++ [.log (.unrecognized w s.pc)] ∧ t.fr = s.fr ∧ t.mode = s.mode)

/-- R91: `0nnn` is logged and changes nothing beyond the advance and the timers. What the `Log` event carries is D13 (log 24). -/
def Obligations.SysIsALoggedNoOp : Prop :=
  ∀ (nnn : Addr) (s : State), nnn ≠ 0x0E0#12 → nnn ≠ 0x0EE#12 →
    resolve (wordA 0x0#4 nnn) = .sys nnn
      ∧ Runs (.sys nnn) s (s.pc + 2#16) (· = .trace) (fun t => t.trace = s.trace ++ [.log (.sysCall nnn s.pc)])

/-- R90, R144: `00E0` unsets every pixel and signals the renderer; `VF` and all else keep their values (D28, log 29). The event is
D18 (log 24). -/
def Obligations.ClsUnsetsEveryPixel : Prop :=
  resolve 0x00E0#16 = .cls
    ∧ ∀ s : State, Runs .cls s (s.pc + 2#16) (fun c => c = .trace ∨ ∃ r q, c = .pixel r q)
        (fun t => (∀ r q, t.pixel r q = false) ∧ t.trace = s.trace ++ [.clearDisplay])

/-! ### Control transfer -/

/-- R95, R202: `00EE` pops: `SP` goes down by one and `PC` is the popped slot's value; with `SP = 0` it is the fatal
`StackUnderflow`: `SP` stays 0, `PC` is the advanced value, the timers are not decremented. That the fault is a next state with
`FR` written and mode `Faulted` is R203, R88 and R21 (D12, log 1). That the popped slot keeps its value is D16 (log 27). -/
def Obligations.RetPopsTheReturnAddress : Prop :=
  resolve 0x00EE#16 = .ret
    ∧ ∀ s : State,
      (∀ k : Fin 16, k.val + 1 = s.sp.val → Runs .ret s (s.slot k) (· = .sp) (fun t => t.sp.val = k.val))
        ∧ (s.sp.val = 0 → ∃ t r, exec .ret s = .next t ∧ t.sp = s.sp ∧ t.pc = s.pc + 2#16 ∧ t.dt = s.dt ∧ t.st = s.st
            ∧ t.mode = .faulted ∧ t.fr = some r ∧ r.cause = .stackUnderflow)

/-- R97, R201: `2nnn` pushes the address of the instruction after it and jumps; with `SP = 16` it is the fatal `StackOverflow`:
nothing is pushed, `SP` stays 16 and `PC` is the advanced value. That the fault is a next state with `FR` written, mode
`Faulted` and the timers as before is R203, R88 and R21 (D12, log 1). -/
def Obligations.CallPushesTheReturnAddress : Prop :=
  ∀ (nnn : Addr) (s : State),
    resolve (wordA 0x2#4 nnn) = .call nnn
      ∧ (∀ k : Fin 16, s.sp.val = k.val →
          Runs (.call nnn) s (BitVec.ofNat 16 nnn.toNat) (fun c => c = .slot k ∨ c = .sp)
            (fun t => t.slot k = s.pc + 2#16 ∧ t.sp.val = k.val + 1))
      ∧ (s.sp.val = 16 → ∃ t r, exec (.call nnn) s = .next t ∧ t.pc = s.pc + 2#16 ∧ t.mode = .faulted ∧ t.fr = some r
          ∧ r.cause = .stackOverflow ∧ Unchanged (fun c => c = .pc ∨ c = .mode ∨ c = .fr) s t)

/-- Source §8 (R95's example): a return after a call, wherever the program counter has gone in between, is at the instruction after
the call, with the stack as deep as before. -/
def Obligations.ReturnAfterCallResumes : Prop :=
  ∀ (nnn : Addr) (s : State), s.sp.val < 16 →
    ∃ t, exec (.call nnn) s = .next t
      ∧ ∀ a : Word, ∃ u, exec .ret (t.setPc a) = .next u ∧ u.pc = s.pc + 2#16 ∧ u.sp = s.sp

/-- R14, R15, R97: a stack slot is written by `2nnn` alone, the stack pointer moves by `2nnn` and `00EE` alone. That a popped slot
keeps its value is D16 (log 27). That a faulting form has a next state, with the stack as before, is D12 (log 1). -/
def Obligations.StackIsTouchedByCallAndRetOnly : Prop :=
  ∀ (i : Instr) (s : State), (∀ nnn, i ≠ .call nnn) →
    ∃ t, exec i s = .next t ∧ (∀ k, t.slot k = s.slot k) ∧ (i ≠ .ret → t.sp = s.sp)

/-- R96, R98: `1nnn` loads `nnn` into `PC`; `Bnnn` loads `nnn + V[0]`, not reduced to 12 bits; no other register, no flag. -/
def Obligations.JumpsLoadTheProgramCounter : Prop :=
  ∀ (nnn : Addr) (s : State),
    (resolve (wordA 0x1#4 nnn) = .jp nnn ∧ Runs (.jp nnn) s (BitVec.ofNat 16 nnn.toNat) nothing anyState)
      ∧ resolve (wordA 0xB#4 nnn) = .jpV0 nnn
      ∧ Runs (.jpV0 nnn) s (BitVec.ofNat 16 (nnn.toNat + (s.getV 0x0#4).toNat)) nothing anyState

/-! ### Skips -/

/-- R101, R102: `3xkk` and `4xkk` skip the next word on equality and on difference of `V[x]` and `kk`; nothing else changes. -/
def Obligations.ImmediateSkips : Prop :=
  ∀ (x : RegIdx) (kk : Byte) (s : State),
    (resolve (wordXK 0x3#4 x kk) = .seImm x kk
        ∧ Runs (.seImm x kk) s (if s.getV x = kk then s.pc + 4#16 else s.pc + 2#16) nothing anyState)
      ∧ resolve (wordXK 0x4#4 x kk) = .sneImm x kk
      ∧ Runs (.sneImm x kk) s (if s.getV x = kk then s.pc + 2#16 else s.pc + 4#16) nothing anyState

/-- R103, R104: `5xy-` and `9xy-` skip on equality and on difference of `V[x]` and `V[y]`, whatever the low nibble is (D5, log 16). -/
def Obligations.RegisterSkips : Prop :=
  ∀ (x y : RegIdx) (n : Nibble) (s : State),
    (resolve (wordXYN 0x5#4 x y n) = .seReg x y n
        ∧ Runs (.seReg x y n) s (if s.getV x = s.getV y then s.pc + 4#16 else s.pc + 2#16) nothing anyState)
      ∧ resolve (wordXYN 0x9#4 x y n) = .sneReg x y n
      ∧ Runs (.sneReg x y n) s (if s.getV x = s.getV y then s.pc + 2#16 else s.pc + 4#16) nothing anyState

/-- R105, R106: `Ex9E` skips iff a key is pressed whose code equals all 8 bits of `V[x]` (D22, log 21), `ExA1` iff not. -/
def Obligations.KeySkips : Prop :=
  ∀ (x : RegIdx) (s : State),
    (resolve (wordXK 0xE#4 x 0x9E#8) = .skp x ∧ resolve (wordXK 0xE#4 x 0xA1#8) = .sknp x)
      ∧ ((∃ k, s.input = some k ∧ k.toNat = (s.getV x).toNat) →
          Runs (.skp x) s (s.pc + 4#16) nothing anyState ∧ Runs (.sknp x) s (s.pc + 2#16) nothing anyState)
      ∧ ((∀ k, s.input = some k → k.toNat ≠ (s.getV x).toNat) →
          Runs (.skp x) s (s.pc + 2#16) nothing anyState ∧ Runs (.sknp x) s (s.pc + 4#16) nothing anyState)

/-! ### Load and ALU -/

/-- R112, R113, R114: `6xkk` loads `kk`, `7xkk` adds it modulo 256 with no flag, `8xy0` copies `V[y]`; only `V[x]` changes. -/
def Obligations.LoadsAndImmediateAdd : Prop :=
  ∀ (x y : RegIdx) (kk : Byte) (s : State),
    (resolve (wordXK 0x6#4 x kk) = .ldImm x kk
        ∧ Runs (.ldImm x kk) s (s.pc + 2#16) (· = .reg x) (fun t => t.getV x = kk))
      ∧ (resolve (wordXK 0x7#4 x kk) = .addImm x kk
        ∧ Runs (.addImm x kk) s (s.pc + 2#16) (· = .reg x)
            (fun t => (t.getV x).toNat = ((s.getV x).toNat + kk.toNat) % 256))
      ∧ resolve (wordXYN 0x8#4 x y 0x0#4) = .ldReg x y
      ∧ Runs (.ldReg x y) s (s.pc + 2#16) (· = .reg x) (fun t => t.getV x = s.getV y)

/-- R115, R116, R117: the logical operations, bit by bit; only `V[x]` changes, no flag. -/
def Obligations.LogicalOperations : Prop :=
  ∀ (x y : RegIdx) (s : State),
    (resolve (wordXYN 0x8#4 x y 0x1#4) = .orReg x y
        ∧ Runs (.orReg x y) s (s.pc + 2#16) (· = .reg x)
            (fun t => ∀ k < 8, (t.getV x).getLsbD k = ((s.getV x).getLsbD k || (s.getV y).getLsbD k)))
      ∧ (resolve (wordXYN 0x8#4 x y 0x2#4) = .andReg x y
        ∧ Runs (.andReg x y) s (s.pc + 2#16) (· = .reg x)
            (fun t => ∀ k < 8, (t.getV x).getLsbD k = ((s.getV x).getLsbD k && (s.getV y).getLsbD k)))
      ∧ resolve (wordXYN 0x8#4 x y 0x3#4) = .xorReg x y
      ∧ Runs (.xorReg x y) s (s.pc + 2#16) (· = .reg x)
          (fun t => ∀ k < 8, (t.getV x).getLsbD k = ((s.getV x).getLsbD k ^^ (s.getV y).getLsbD k))

/-- R118: `8xy4` adds modulo 256 and writes the carry, 0 or 1, into `V[15]` last: with `x = 15` the flag is what stays. The order of
the writes is D6 (log 17). -/
def Obligations.AddWritesTheCarry : Prop :=
  ∀ (x y : RegIdx) (s : State),
    resolve (wordXYN 0x8#4 x y 0x4#4) = .addReg x y
      ∧ Runs (.addReg x y) s (s.pc + 2#16) (fun c => c = .reg x ∨ c = .reg 0xF#4)
          (fun t => (x ≠ 0xF#4 → (t.getV x).toNat = ((s.getV x).toNat + (s.getV y).toNat) % 256)
            ∧ t.getV 0xF#4 = if (s.getV x).toNat + (s.getV y).toNat > 255 then 1#8 else 0#8)

/-- R119, R121: `8xy5` is `V[x] - V[y]` into `V[x]`, `8xy7` is `V[y] - V[x]` into `V[y]`, modulo 256; `V[15]` is 1 iff the minuend
was strictly greater, written last. The order of the writes is D6 (log 17). -/
def Obligations.SubtractionsWriteNoBorrow : Prop :=
  ∀ (x y : RegIdx) (s : State),
    (resolve (wordXYN 0x8#4 x y 0x5#4) = .sub x y
        ∧ Runs (.sub x y) s (s.pc + 2#16) (fun c => c = .reg x ∨ c = .reg 0xF#4)
            (fun t => (x ≠ 0xF#4 → (t.getV x).toNat = ((s.getV x).toNat + 256 - (s.getV y).toNat) % 256)
              ∧ t.getV 0xF#4 = if (s.getV x).toNat > (s.getV y).toNat then 1#8 else 0#8))
      ∧ resolve (wordXYN 0x8#4 x y 0x7#4) = .subr x y
      ∧ Runs (.subr x y) s (s.pc + 2#16) (fun c => c = .reg y ∨ c = .reg 0xF#4)
          (fun t => (y ≠ 0xF#4 → (t.getV y).toNat = ((s.getV y).toNat + 256 - (s.getV x).toNat) % 256)
            ∧ t.getV 0xF#4 = if (s.getV y).toNat > (s.getV x).toNat then 1#8 else 0#8)

/-- R120, R122: the shifts by one of `V[x]`, whatever the `y` nibble is; the bit shifted out goes to `V[15]` first, so with `x = 15`
the shifted flag is what stays: 0 for `8x-6`; 2 or 0 for `8x-E`. The order of the writes is D6 (log 17); the `y` nibble is log
16. -/
def Obligations.ShiftsWriteTheBitShiftedOut : Prop :=
  ∀ (x : RegIdx) (n : Nibble) (s : State),
    (resolve (wordXYN 0x8#4 x n 0x6#4) = .shr x n
        ∧ Runs (.shr x n) s (s.pc + 2#16) (fun c => c = .reg x ∨ c = .reg 0xF#4)
            (fun t => (x ≠ 0xF#4 → (t.getV x).toNat = (s.getV x).toNat / 2
                ∧ (t.getV 0xF#4).toNat = (s.getV x).toNat % 2) ∧ (x = 0xF#4 → t.getV x = 0#8)))
      ∧ resolve (wordXYN 0x8#4 x n 0xE#4) = .shl x n
      ∧ Runs (.shl x n) s (s.pc + 2#16) (fun c => c = .reg x ∨ c = .reg 0xF#4)
          (fun t => (x ≠ 0xF#4 → (t.getV x).toNat = (2 * (s.getV x).toNat) % 256
              ∧ (t.getV 0xF#4).toNat = (s.getV x).toNat / 128)
            ∧ (x = 0xF#4 → (t.getV x).toNat = 2 * ((s.getV x).toNat / 128)))

/-- R111 (D6, log 17): an instruction applied twice to one register. `8xx4` doubles it with the old top bit as the carry, `8xx5` and
`8xx7` clear it with flag 0, `8xx0`, `8xx1` and `8xx2` leave it, `8xx3` clears it. -/
def Obligations.OneRegisterAsBothOperands : Prop :=
  ∀ (x : RegIdx) (s : State), x ≠ 0xF#4 →
    (∃ t, exec (.addReg x x) s = .next t ∧ (t.getV x).toNat = (2 * (s.getV x).toNat) % 256
        ∧ (t.getV 0xF#4).toNat = (s.getV x).toNat / 128)
      ∧ (∃ t, exec (.sub x x) s = .next t ∧ t.getV x = 0#8 ∧ t.getV 0xF#4 = 0#8)
      ∧ (∃ t, exec (.subr x x) s = .next t ∧ t.getV x = 0#8 ∧ t.getV 0xF#4 = 0#8)
      ∧ (∃ t, exec (.ldReg x x) s = .next t ∧ t.getV x = s.getV x)
      ∧ (∃ t, exec (.orReg x x) s = .next t ∧ t.getV x = s.getV x)
      ∧ (∃ t, exec (.andReg x x) s = .next t ∧ t.getV x = s.getV x)
      ∧ ∃ t, exec (.xorReg x x) s = .next t ∧ t.getV x = 0#8

/-- R123: `Cxkk` is the drawn byte, whatever it is, masked with `kk`: no bit outside `kk`, no flag, one draw consumed. The byte is a
free value (D14, log 9). -/
def Obligations.RndMasksTheDraw : Prop :=
  ∀ (x : RegIdx) (kk : Byte) (s : State),
    resolve (wordXK 0xC#4 x kk) = .rnd x kk
      ∧ Runs (.rnd x kk) s (s.pc + 2#16) (fun c => c = .reg x ∨ c = .draws)
          (fun t => t.getV x = Config.randomByte s.draws &&& kk ∧ t.getV x &&& ~~~kk = 0#8 ∧ t.draws = s.draws + 1)

/-- R11: an instruction that neither defines a flag outcome nor names register 15 as its destination leaves `V[15]`. That `00E0` is
among them is D28 (log 29). That `FF0A`, which R11 lists as naming register 15, leaves it in its own step and has it written when
the key hold ends, is D10 (log 19). That a faulting form has a next state with `V[15]` as before is D12 (log 1). -/
def Obligations.FlagRegisterIsOtherwiseUntouched : Prop :=
  ∀ (i : Instr) (s : State), mayWriteFlag i = false → ∃ t, exec i s = .next t ∧ t.getV 0xF#4 = s.getV 0xF#4

/-! ### Address register and memory -/

/-- R130, R131: `Annn` loads `nnn` into `I`; `Fx1E` adds `V[x]` modulo 4096; no flag. -/
def Obligations.IndexRegisterLoads : Prop :=
  ∀ (nnn : Addr) (x : RegIdx) (s : State),
    (resolve (wordA 0xA#4 nnn) = .ldI nnn
        ∧ Runs (.ldI nnn) s (s.pc + 2#16) (· = .i) (fun t => t.i.toNat = nnn.toNat))
      ∧ resolve (wordXK 0xF#4 x 0x1E#8) = .addI x
      ∧ Runs (.addI x) s (s.pc + 2#16) (· = .i) (fun t => t.i.toNat = (s.i.toNat + (s.getV x).toNat) % 4096)

/-- R132: `Fx29` sets `I` to five times `V[x]`, all 8 bits of it (D23, log 22). -/
def Obligations.GlyphAddress : Prop :=
  ∀ (x : RegIdx) (s : State),
    resolve (wordXK 0xF#4 x 0x29#8) = .ldF x
      ∧ Runs (.ldF x) s (s.pc + 2#16) (· = .i) (fun t => t.i.toNat = 5 * (s.getV x).toNat)

/-- R133, R134, R136: `Fx33` stores the three digits of `V[x]` from `I` on, `Fx55` stores `V[0]` to `V[x]`; every other byte and
every register is as before. The range must fit (D4, log 15); `ExecutionFaultsExactlyOnItsCondition` says what happens where it
does not. -/
def Obligations.StoresWriteTheirBytes : Prop :=
  ∀ (x : RegIdx) (s : State),
    (resolve (wordXK 0xF#4 x 0x33#8) = .bcd x ∧ resolve (wordXK 0xF#4 x 0x55#8) = .stm x)
      ∧ (s.i.toNat + 2 ≤ 0xFFF →
          Runs (.bcd x) s (s.pc + 2#16) (fun c => ∃ k < 3, c = .byte (elementAddress s k))
            (fun t => (t.readByte (elementAddress s 0)).toNat = (s.getV x).toNat / 100
              ∧ (t.readByte (elementAddress s 1)).toNat = (s.getV x).toNat / 10 % 10
              ∧ (t.readByte (elementAddress s 2)).toNat = (s.getV x).toNat % 10))
      ∧ (s.i.toNat + x.toNat ≤ 0xFFF →
          Runs (.stm x) s (s.pc + 2#16) (fun c => ∃ k ≤ x.toNat, c = .byte (elementAddress s k))
            (fun t => ∀ k : RegIdx, k.toNat ≤ x.toNat → t.readByte (elementAddress s k.toNat) = s.getV k))

/-- R135: `Fx65` loads the bytes from `I` on into `V[0]` to `V[x]`, leaves the registers above `x` and `I`; if the range passes
`0xFFF` it is the fatal `MemoryOutOfRange` and no register is written. The range fault is D4 (log 15), its form D12 (log 1). -/
def Obligations.LoadsReadTheirBytes : Prop :=
  ∀ (x : RegIdx) (s : State),
    resolve (wordXK 0xF#4 x 0x65#8) = .ldm x
      ∧ (s.i.toNat + x.toNat ≤ 0xFFF →
          Runs (.ldm x) s (s.pc + 2#16) (fun c => ∃ k : RegIdx, k.toNat ≤ x.toNat ∧ c = .reg k)
            (fun t => ∀ k : RegIdx, k.toNat ≤ x.toNat → t.getV k = s.readByte (elementAddress s k.toNat)))
      ∧ (s.i.toNat + x.toNat > 0xFFF → ∃ t r, exec (.ldm x) s = .next t ∧ t.mode = .faulted ∧ t.fr = some r
          ∧ r.cause = .memoryOutOfRange 0x1000#16 ∧ ∀ y, t.getV y = s.getV y)

/-- R52: bytes that `Fx55` stores are what a later fetch from those addresses reads, the byte at the lower address as the high byte.
The byte order is D1 (log 12), the range condition D4 (log 15). -/
def Obligations.StoredCodeIsFetched : Prop :=
  ∀ (x : RegIdx) (s : State) (k l : RegIdx), s.i.toNat + x.toNat ≤ 0xFFF → l.toNat = k.toNat + 1 → l.toNat ≤ x.toNat →
    ∃ t, exec (.stm x) s = .next t
      ∧ (t.setPc (BitVec.ofNat 16 (elementAddress s k.toNat))).fetchedWord = joinBytes (s.getV k) (s.getV l)

/-- R54, R48: in any step whatever, a byte of memory changes only because `Fx33` or `Fx55` was executed, and only in its range. That
a store which faults writes nothing is D4 (log 15). -/
def Obligations.MemoryChangesOnlyByStores : Prop :=
  ∀ (s t : State) (a : Nat), step s = .next t → t.readByte a ≠ s.readByte a →
    ServesInstruction s ∧ ∃ x : RegIdx,
      (resolve s.fetchedWord = .bcd x ∧ s.i.toNat ≤ a ∧ a ≤ s.i.toNat + 2)
        ∨ (resolve s.fetchedWord = .stm x ∧ s.i.toNat ≤ a ∧ a ≤ s.i.toNat + x.toNat)

/-! ### Drawing -/

/-- R143: the blit of a sprite of at most 15 bytes flips exactly the pixels the sprite covers after wrap-around, and answers
collision iff it covers a pixel that was set. The geometry and the sizes as parameters are D9 (log 18). -/
def Obligations.DrawSpriteIsXor : Prop :=
  ∀ (cfg : Config) (fb : Bitmap) (bytes : List Byte) (vx vy : Byte), bytes.length ≤ 15 →
    (∀ r c, Bitmap.isSet (drawSprite cfg fb bytes vx vy).1 r c ≠ Bitmap.isSet fb r c ↔ SpriteCovers cfg bytes vx vy r c)
      ∧ ((drawSprite cfg fb bytes vx vy).2 = true ↔
          ∃ r c, Bitmap.isSet fb r c = true ∧ SpriteCovers cfg bytes vx vy r c)

/-- R142: `Dxyn` draws the `n` bytes from `I` on at `(V[x], V[y])` and writes the collision, 0 or 1, into `V[15]`; `I`, memory and
every other register stay, the position being read before the flag is written. The range must fit (D4, log 15); `n = 0` draws
nothing and clears the flag (D24, log 23); sprite geometry is D9 (log 18), the event D18 (log 24). -/
def Obligations.DrwDrawsAndReportsCollision : Prop :=
  ∀ (x y : RegIdx) (n : Nibble) (s : State),
    resolve (wordXYN 0xD#4 x y n) = .drw x y n
      ∧ (n = 0#4 ∨ s.i.toNat + n.toNat - 1 ≤ 0xFFF →
          Runs (.drw x y n) s (s.pc + 2#16) (fun c => c = .reg 0xF#4 ∨ c = .trace ∨ ∃ r q, c = .pixel r q)
            (fun t => t.trace = s.trace ++ [.drawSprite (spriteBytes s n) (s.getV x) (s.getV y)]
              ∧ (∀ r c, t.pixel r c ≠ s.pixel r c ↔ SpriteCovers s.config (spriteBytes s n) (s.getV x) (s.getV y) r c)
              ∧ ((∃ r c, s.pixel r c = true ∧ SpriteCovers s.config (spriteBytes s n) (s.getV x) (s.getV y) r c) →
                  t.getV 0xF#4 = 1#8)
              ∧ ((∀ r c, s.pixel r c = true → ¬ SpriteCovers s.config (spriteBytes s n) (s.getV x) (s.getV y) r c) →
                  t.getV 0xF#4 = 0#8)))

/-- R146 (a): the same sprite drawn twice restores the bitmap exactly, and the second flag is 1 iff the sprite covers a pixel that
was unset before. `x` and `y` other than 15, as the rule says; the bitmap in canonical form (`InvariantIsKeptByEveryStep`). The
geometry is D9 (log 18), the range condition D4 (log 15), `n = 0` D24 (log 23); the canonical form is the model's (log 18). -/
def Obligations.DrawingTwiceRestoresTheDisplay : Prop :=
  ∀ (x y : RegIdx) (n : Nibble) (s : State), x ≠ 0xF#4 → y ≠ 0xF#4 → Bitmap.wf s.config s.fb →
    (n = 0#4 ∨ s.i.toNat + n.toNat - 1 ≤ 0xFFF) →
      ∃ t u, exec (.drw x y n) s = .next t ∧ exec (.drw x y n) t = .next u ∧ u.fb = s.fb
        ∧ (u.getV 0xF#4 = 1#8 ↔
            ∃ r c, s.pixel r c = false ∧ SpriteCovers s.config (spriteBytes s n) (s.getV x) (s.getV y) r c)

/-! ### Timers and keys -/

/-- R150, R151, R153: `Fx07` reads `DT` before the step's decrement; `Fx15` and `Fx18` load a timer, which the same step then
decrements. -/
def Obligations.TimerTransfers : Prop :=
  ∀ (x : RegIdx) (s : State),
    (resolve (wordXK 0xF#4 x 0x07#8) = .ldVxDt x
        ∧ Runs (.ldVxDt x) s (s.pc + 2#16) (· = .reg x) (fun t => t.getV x = s.dt))
      ∧ (resolve (wordXK 0xF#4 x 0x15#8) = .ldDtVx x
        ∧ RunsWith (.ldDtVx x) s (s.pc + 2#16) ((s.getV x).toNat - 1) (s.st.toNat - 1) nothing anyState)
      ∧ resolve (wordXK 0xF#4 x 0x18#8) = .ldStVx x
      ∧ RunsWith (.ldStVx x) s (s.pc + 2#16) (s.dt.toNat - 1) ((s.getV x).toNat - 1) nothing anyState

/-- R152 (D10, log 19): `Fx0A` starts the key hold and writes no register. -/
def Obligations.KeyWaitStartsTheHold : Prop :=
  ∀ (x : RegIdx) (s : State),
    resolve (wordXK 0xF#4 x 0x0A#8) = .ldVxK x
      ∧ Runs (.ldVxK x) s (s.pc + 2#16) (· = .kw) (fun t => t.kw = some x)

/-- R163, R172 (D10, log 19): during a key hold an instruction-ready event is not served; a press report is written to `V[x]` and to
`input` and ends the hold; a release report only updates `input`. Program counter and timers stand still throughout. That input
is served in a hold is D19 (log 31), what a release does to `input` D17 (log 20). -/
def Obligations.KeyHoldEndsWithAPress : Prop :=
  ∀ (s : State) (x : RegIdx), s.mode.terminal = false → s.kw = some x →
    (s.nextTurn = some .instrReady → ∃ t, step s = .next t ∧ Unchanged (fun c => c = .turns ∨ c = .events) s t)
      ∧ (∀ k rest, s.nextTurn = some .inputReady → s.inputQueue = some k :: rest →
          ∃ t, step s = .next t ∧ t.input = some k ∧ (t.getV x).toNat = k.toNat ∧ t.kw = none ∧ t.inputQueue = rest
            ∧ Unchanged (fun c => c = .turns ∨ c = .events ∨ c = .inputQueue ∨ c = .input ∨ c = .reg x ∨ c = .kw) s t)
      ∧ (∀ rest, s.nextTurn = some .inputReady → s.inputQueue = none :: rest →
          ∃ t, step s = .next t ∧ t.input = none ∧ t.kw = some x ∧ t.inputQueue = rest
            ∧ Unchanged (fun c => c = .turns ∨ c = .events ∨ c = .inputQueue ∨ c = .input) s t)

/-! ### The scheduler -/

/-- R170, R165 (D17, D11, log 20): with no key hold, serving input-ready takes the oldest report of the FIFO and makes it the
content of `input`, whatever was there; a report made is appended at the FIFO's end. -/
def Obligations.InputReportsReplaceInput : Prop :=
  ∀ (s : State), s.mode.terminal = false →
    (∀ report rest, s.kw = none → s.nextTurn = some .inputReady → s.inputQueue = report :: rest →
        ∃ t, step s = .next t ∧ t.input = report ∧ t.inputQueue = rest
          ∧ Unchanged (fun c => c = .turns ∨ c = .events ∨ c = .inputQueue ∨ c = .input) s t)
      ∧ (∀ report, s.nextTurn = some (.keyReport report) →
          ∃ t, step s = .next t ∧ t.inputQueue = s.inputQueue ++ [report]
            ∧ Unchanged (fun c => c = .turns ∨ c = .events ∨ c = .inputQueue) s t)

/-- R169: a frame-ready event emits `RenderFrame` and changes no core state. The event is D18 (log 24); that it is served in a key
hold and in debug mode too is D19 (log 31). -/
def Obligations.FrameChangesNoCoreState : Prop :=
  ∀ s : State, s.mode.terminal = false → s.nextTurn = some .frameReady →
    ∃ t, step s = .next t ∧ t.trace = s.trace ++ [.renderFrame]
      ∧ Unchanged (fun c => c = .turns ∨ c = .events ∨ c = .trace) s t

/-- R171: a quit-ready event stops the machine and changes nothing else, a pending key hold included. That the latch keeps a pending
hold is D29, that quit is served in a hold and in debug mode D19 (log 31). -/
def Obligations.QuitStopsTheMachine : Prop :=
  ∀ s : State, s.mode.terminal = false → s.nextTurn = some .quitReady →
    ∃ t, step s = .next t ∧ t.mode = .stopped ∧ Unchanged (fun c => c = .turns ∨ c = .events ∨ c = .mode) s t

/-- R174 (D21): `Stopped` and `Faulted` are terminal, and they are the only states without a next one: elsewhere the machine always
goes on (93_implementation_defined.md U21, U22: stuck; the named fault is the model's form of it, log 2). That the step entering a
fatal fault has a next state is D12 (log 1). Where no source is ready, R160's loop blocks; that the step then rests with a next
state is the model's choice (log 3). -/
def Obligations.OnlyTerminalModesHaveNoNextState : Prop :=
  ∀ s : State, (s.mode.terminal = true ↔ ∀ t, step s ≠ .next t)
    ∧ (s.mode = .stopped → step s = .fault .stopped) ∧ (s.mode = .faulted → step s = .fault .faulted)

/-- R161: the scheduler's transitions: `Stopped` only by quit-ready, `Faulted` only by a served instruction, and otherwise the mode
stays; the mode of operation and all other parameters never change (D20). The mode `Faulted` and its record are D12 (log 1). -/
def Obligations.ModeTransitions : Prop :=
  ∀ s t : State, step s = .next t →
    t.config = s.config
      ∧ (t.mode = s.mode ∨ (t.mode = .stopped ∧ s.nextTurn = some .quitReady)
          ∨ (t.mode = .faulted ∧ ServesInstruction s ∧ t.fr.isSome = true))

/-- R173, E6 (D20; the form of the step command is log 25): in debug mode a frame executes nothing, and one step command executes
exactly one instruction, after which the next turn is again the environment's or the next settled one. The frame's event is D18
(log 24); that frames are served in debug mode is D19 (log 31). -/
def Obligations.DebugStepperExecutesOneInstruction : Prop :=
  ∀ (s : State) (rest : List Turn), s.mode = .awaitingManualStep →
    (s.turns = .frameReady :: rest →
        ∃ t, step s = .next t ∧ t.mode = .awaitingManualStep ∧ t.turns = rest ∧ t.trace = s.trace ++ [.renderFrame]
          ∧ Unchanged (fun c => c = .turns ∨ c = .trace) s t)
      ∧ (∀ i, s.kw = none → s.turns = .instrReady :: rest → s.pc.toNat ≤ 0xFFE → resolve s.fetchedWord = i →
          faultCause i s = none →
            ∃ t, step s = .next t ∧ exec i (s.setTurns rest) = .next t ∧ t.mode = .awaitingManualStep ∧ t.turns = rest
              ∧ t.events = s.events)

/-- R212, R167: a step that serves no instruction never touches `PC`, `I`, the stack, the timers, memory or the display, nor a
general register but the one a key hold was waiting to write. The key hold is D10 (log 19). -/
def Obligations.EventsNeverRedirectTheProgram : Prop :=
  ∀ (s t : State), step s = .next t → s.nextTurn ≠ some .instrReady →
    Unchanged (fun c => c = .turns ∨ c = .events ∨ c = .inputQueue ∨ c = .input ∨ c = .kw ∨ c = .mode
        ∨ c = .trace ∨ ∃ x, s.kw = some x ∧ c = .reg x) s t

/-- R169, E4: two frames served between two instructions leave the core state as if there had been none. The output trace, which
alone may differ, is log 24. -/
def Obligations.FramesDoNotMatter : Prop :=
  ∀ (s a b : State) (rest : List Turn),
    Host.Core.run core 4 (s.setTurns (.instrReady :: .frameReady :: .frameReady :: .instrReady :: rest)) = .next a →
    Host.Core.run core 2 (s.setTurns (.instrReady :: .instrReady :: rest)) = .next b → a.core = b.core

/-- R244, R164 (D11), E5: with a press report and an instruction both ready, each order is admitted, and `Ex9E` sees the key in one
and not in the other. The settled turns are the model's form of it (log 3). -/
def Obligations.InputRaceHasBothOutcomes : Prop :=
  ∀ (s : State) (x : RegIdx) (k : Key), s.mode.terminal = false → s.kw = none → s.pc.toNat ≤ 0xFFE →
    resolve s.fetchedWord = .skp x → (s.getV x).toNat = k.toNat → s.input = none → s.inputQueue = [some k] →
      (∃ t, Host.Core.run core 2 (s.setTurns [.inputReady, .instrReady]) = .next t ∧ t.pc = s.pc + 4#16)
        ∧ ∃ t, Host.Core.run core 2 (s.setTurns [.instrReady, .inputReady]) = .next t ∧ t.pc = s.pc + 2#16

/-! ### What cannot influence what -/

/-- R6, R24: the output trace never feeds back: an instruction does the same to the core whatever has been emitted before. That the
trace is kept in the state is the model's choice (log 24). That a faulting form has a next state is D12 (log 1). -/
def Obligations.OutputsNeverFeedBack : Prop :=
  ∀ (i : Instr) (s t : State), s.core = t.core →
    ∃ a b, exec i s = .next a ∧ exec i t = .next b ∧ a.core = b.core

/-- R17: `input` is read by `Ex9E` and `ExA1` only: every other instruction does the same whatever key is down. That a faulting form
has a next state is D12 (log 1). -/
def Obligations.OnlyKeySkipsReadInput : Prop :=
  ∀ (i : Instr) (s : State) (report : Option Key), (∀ x, i ≠ .skp x ∧ i ≠ .sknp x) →
    ∃ t, exec i s = .next t ∧ exec i (s.setInput report) = .next (t.setInput report)

/-- R16, R153: `ST` is read by no instruction: whatever it holds, an instruction does the same to everything but `ST`. That a
faulting form has a next state is D12 (log 1). -/
def Obligations.SoundTimerInfluencesNothing : Prop :=
  ∀ (i : Instr) (s : State) (b : Byte),
    ∃ t u, exec i s = .next t ∧ exec i (s.setSt b) = .next u ∧ u.setSt t.st = t

/-! ### Reset, boot and the invariant -/

/-- R27: what reset leaves. `PC` and `SP` and the zero fill from `0x200` on are the source's; the zeros of `V`, `I`, `DT`, `ST`, the
stack, `input` and the display are D7 (log 10), those of `0x050 .. 0x1FF` D8 (log 11), and the mode rests on `DEBUG_MODE` being
false in the default parameters (log 7). The empty key-hold latch is D10 (log 19), the empty fault record D12 (log 1), the empty
FIFO D11 (log 20), and the empty list of settled turns the model's form of R27's "pending events: none" (D11, log 3). The font's
placement at 0 is D8 (log 11). -/
def Obligations.ResetState : Prop :=
  State.reset.pc = 0x0200#16 ∧ State.reset.sp.val = 0 ∧ State.reset.i = 0#16 ∧ State.reset.dt = 0#8 ∧ State.reset.st = 0#8
    ∧ State.reset.input = none ∧ State.reset.kw = none ∧ State.reset.fr = none ∧ State.reset.mode = .running
    ∧ (∀ x, State.reset.getV x = 0#8) ∧ (∀ k, State.reset.slot k = 0#16) ∧ (∀ r c, State.reset.pixel r c = false)
    ∧ State.reset.inputQueue = [] ∧ State.reset.turns = []
    ∧ (∀ k : Fin 80, State.reset.readByte k.val = State.reset.config.font[k.val])
    ∧ ∀ a, 80 ≤ a → State.reset.readByte a = 0#8

/-- R233, R234: boot fails with `InitError` iff the font is not 80 bytes and then with `ProgramTooLarge` iff the image does not fit
from `0x200` on; otherwise the image stands at `0x200`. That the font stands from 0 on and zeros after the image is R232, R27
and R41 (the placement is D8, log 11); that `InitError` means a font not 80 bytes long is the spec's own reading (D25, log 32). -/
def Obligations.BootLoadsOrFails : Prop :=
  ∀ (c : Config) (font program : List Byte),
    (font.length ≠ 80 → boot c font program = .error .initError)
      ∧ (font.length = 80 → 0x200 + program.length > 4096 → boot c font program = .error .programTooLarge)
      ∧ (font.length = 80 → 0x200 + program.length ≤ 4096 →
          ∃ s, boot c font program = .ok s ∧ (∀ k b, font[k]? = some b → s.readByte k = b)
            ∧ (∀ k b, program[k]? = some b → s.readByte (0x200 + k) = b)
            ∧ ∀ a, 0x200 + program.length ≤ a → s.readByte a = 0#8)

/-- R232, R27, R26: what a successful boot leaves around the image: the font at 0, zeros elsewhere, the entry point, the mode of
`DEBUG_MODE` and the invariant (the reset values rest on D7, D8 and D20, logs 7, 10, 11). The empty latch, fault record, FIFO and
list of turns are D10, D12 and D11 (logs 19, 1, 20, 3), the parts of the invariant logs 11, 18, 1 and 25. -/
def Obligations.BootLeavesTheResetState : Prop :=
  ∀ (c : Config) (font program : List Byte) (s : State), boot c font program = .ok s →
    s.pc = 0x0200#16 ∧ s.Inv ∧ s.mode = (if c.debugMode then .awaitingManualStep else .running)
      ∧ s.config.displayW = c.displayW ∧ s.config.displayH = c.displayH
      ∧ (∀ k b, font[k]? = some b → s.readByte k = b)
      ∧ (∀ a, 80 ≤ a → a < 0x200 ∨ 0x200 + program.length ≤ a → s.readByte a = 0#8)
      ∧ Unchanged (fun d => d = .mode ∨ d = .config ∨ ∃ a, d = .byte a) State.reset s

/-- The invariant (R26, R89 and the canonical forms) holds at reset. The canonical forms are the model's (logs 11, 18); the fault
record is D12 (log 1), the mode of operation D20 (log 25). -/
def Obligations.InvariantHoldsAtReset : Prop := State.reset.Inv

/-- R26, R89: every step of the machine, whatever event it serves, keeps the invariant: `I` and `PC` in their bounds, return
addresses in theirs, memory and bitmap canonical, fault record and mode consistent. The canonical forms are the model's (logs
11, 18); the fault record is D12 (log 1), the mode of operation D20 (log 25). -/
def Obligations.InvariantIsKeptByEveryStep : Prop :=
  ∀ s t : State, s.Inv → step s = .next t → t.Inv

/-- R160, R164, R8 (D11; the form is log 3): the machine fixes no order of events. Any turn may be settled as the next one, and it
is then the one served; where none is settled, the turn is whatever the environment and the arbiter answer, in every mode, and
where they answer none the machine rests. -/
def Obligations.EveryOrderOfEventsIsAdmitted : Prop :=
  ∀ s : State, s.mode.terminal = false →
    (∀ turn, step (s.setTurns (turn :: s.turns)) = serve turn s)
      ∧ (s.turns = [] → step s = match Config.environmentTurn s.events with
          | some turn => serve turn (s.setEvents (s.events + 1))
          | none => .next (s.setEvents (s.events + 1)))
end

