-- ==== Sys2Proof/Laws/Bitmap.lean ====
section
/-! SUPPORT. The laws of the display bitmap as data: what a toggle does to every pixel, the canonical form kept, equal pictures are
equal data. -/

namespace Sys2Proof.Machine

theorem pixelBefore_iff (p q : Nat × Nat) :
    pixelBefore p q = true ↔ p.1 < q.1 ∨ (p.1 = q.1 ∧ p.2 < q.2) := by
  simp [pixelBefore]

theorem pixelBefore_trans {p q r : Nat × Nat} (hpq : pixelBefore p q = true) (hqr : pixelBefore q r = true) :
    pixelBefore p r = true := by
  rw [pixelBefore_iff] at *
  omega

theorem pixelBefore_irrefl (p : Nat × Nat) : ¬ pixelBefore p p = true := by
  rw [pixelBefore_iff]
  omega

theorem pixelBefore_total {p q : Nat × Nat} (hne : p ≠ q) (h : ¬ pixelBefore p q = true) : pixelBefore q p = true := by
  rw [pixelBefore_iff] at *
  have : ¬ (p.1 = q.1 ∧ p.2 = q.2) := fun e => hne (Prod.ext e.1 e.2)
  omega

theorem Bitmap.mem_place (fb : Bitmap) (p q : Nat × Nat) : q ∈ Bitmap.place fb p ↔ q = p ∨ q ∈ fb := by
  induction fb with
  | nil => simp [Bitmap.place]
  | cons r fb ih =>
    by_cases h : pixelBefore p r = true
    · simp [Bitmap.place, h]
    · simp only [Bitmap.place, h, Bool.false_eq_true, if_false, List.mem_cons, ih]
      tauto

theorem Bitmap.isSet_iff (fb : Bitmap) (r c : Nat) : Bitmap.isSet fb r c = true ↔ (r, c) ∈ fb := by
  simp [Bitmap.isSet]

/-- A toggle flips its pixel and leaves every other pixel alone. -/
theorem Bitmap.isSet_toggle (fb : Bitmap) (r c r' c' : Nat) :
    Bitmap.isSet (Bitmap.toggle fb r c) r' c' =
      if r' = r ∧ c' = c then !Bitmap.isSet fb r c else Bitmap.isSet fb r' c' := by
  rw [Bool.eq_iff_iff, Bitmap.isSet_iff]
  by_cases hs : (r, c) ∈ fb
  · have hs' := (Bitmap.isSet_iff fb r c).2 hs
    by_cases he : r' = r ∧ c' = c
    · simp [Bitmap.toggle, hs', he]
    · simp [Bitmap.toggle, hs', he, Bitmap.isSet_iff, Prod.ext_iff]
  · have hs' : Bitmap.isSet fb r c = false := by
      rw [← Bool.not_eq_true, Bitmap.isSet_iff]; exact hs
    by_cases he : r' = r ∧ c' = c
    · simp [Bitmap.toggle, hs', he, Bitmap.mem_place]
    · simp [Bitmap.toggle, hs', he, Bitmap.mem_place, Bitmap.isSet_iff, Prod.ext_iff]

theorem Bitmap.wf_blank (cfg : Config) : Bitmap.wf cfg blankBitmap := by simp [Bitmap.wf, blankBitmap]

theorem Bitmap.place_rising (fb : Bitmap) (p : Nat × Nat) (h : fb.Pairwise (fun p q => pixelBefore p q = true))
    (hp : p ∉ fb) : (Bitmap.place fb p).Pairwise (fun p q => pixelBefore p q = true) := by
  induction fb with
  | nil => simp [Bitmap.place]
  | cons q fb ih =>
    obtain ⟨hq, hm⟩ := List.pairwise_cons.1 h
    by_cases hlt : pixelBefore p q = true
    · simp only [Bitmap.place, hlt, if_true]
      refine List.pairwise_cons.2 ⟨fun r hr => ?_, h⟩
      rcases List.mem_cons.1 hr with rfl | hr
      · exact hlt
      · exact pixelBefore_trans hlt (hq r hr)
    · simp only [Bitmap.place, hlt, Bool.false_eq_true, if_false]
      have hne : p ≠ q := fun e => hp (by simp [e])
      refine List.pairwise_cons.2 ⟨fun r hr => ?_, ih hm fun hr => hp (by simp [hr])⟩
      rcases (Bitmap.mem_place fb p r).1 hr with rfl | hr
      · exact pixelBefore_total hne hlt
      · exact hq r hr

/-- A toggle on the display keeps the canonical form. -/
theorem Bitmap.wf_toggle {cfg : Config} {fb : Bitmap} {r c : Nat} (hr : r < cfg.displayH) (hc : c < cfg.displayW)
    (h : Bitmap.wf cfg fb) : Bitmap.wf cfg (Bitmap.toggle fb r c) := by
  unfold Bitmap.toggle
  split
  · exact ⟨h.1.sublist List.filter_sublist, fun p hp => h.2 p (List.mem_filter.1 hp).1⟩
  · next hs =>
    rw [Bitmap.isSet_iff] at hs
    refine ⟨Bitmap.place_rising fb _ h.1 hs, fun p hp => ?_⟩
    rcases (Bitmap.mem_place fb _ p).1 hp with rfl | hp
    · exact ⟨hr, hc⟩
    · exact h.2 p hp

/-- Equal pictures are equal data. -/
theorem Bitmap.ext_of_wf {cfg : Config} {fb fb' : Bitmap} (h : Bitmap.wf cfg fb) (h' : Bitmap.wf cfg fb')
    (hset : ∀ r c, Bitmap.isSet fb r c = Bitmap.isSet fb' r c) : fb = fb' := by
  have hperm : fb.Perm fb' := by
    refine (List.perm_ext_iff_of_nodup ?_ ?_).2 fun p => ?_
    · exact h.1.imp fun hlt e => by rw [e] at hlt; exact pixelBefore_irrefl _ hlt
    · exact h'.1.imp fun hlt e => by rw [e] at hlt; exact pixelBefore_irrefl _ hlt
    · rw [← Bitmap.isSet_iff fb p.1 p.2, ← Bitmap.isSet_iff fb' p.1 p.2, hset]
  exact hperm.eq_of_pairwise (le := fun p q => pixelBefore p q = true)
    (fun p q _ _ hpq hqp => absurd (pixelBefore_trans hpq hqp) (pixelBefore_irrefl p)) h.1 h'.1

/-! ### The blit -/

theorem pixelRow_lt (cfg : Config) (vy : Byte) (r : Nat) : pixelRow cfg vy r < cfg.displayH :=
  Nat.mod_lt _ (Nat.lt_of_lt_of_le (by decide) cfg.tall)

theorem pixelColumn_lt (cfg : Config) (vx : Byte) (c : Nat) : pixelColumn cfg vx c < cfg.displayW :=
  Nat.mod_lt _ (Nat.lt_of_lt_of_le (by decide) cfg.wide)

/-- What one pixel of a sprite does to every pixel of the display. -/
theorem isSet_drawPixel (cfg : Config) (vx vy : Byte) (r : Nat) (b : Byte) (acc : Blit) (c r' c' : Nat) :
    Bitmap.isSet (drawPixel cfg vx vy r b acc c).1 r' c' =
      (Bitmap.isSet acc.1 r' c' ^^
        (spriteBit b c && decide (r' = pixelRow cfg vy r ∧ c' = pixelColumn cfg vx c))) := by
  unfold drawPixel
  cases hb : spriteBit b c
  · simp
  · simp only [if_true, Bitmap.isSet_toggle, Bool.true_and]
    by_cases h : r' = pixelRow cfg vy r ∧ c' = pixelColumn cfg vx c
    · simp [h]
    · simp [h]

/-- What one pixel of a sprite does to the collision answer. -/
theorem drawPixel_collided (cfg : Config) (vx vy : Byte) (r : Nat) (b : Byte) (acc : Blit) (c : Nat) :
    (drawPixel cfg vx vy r b acc c).2 =
      (acc.2 || (spriteBit b c && Bitmap.isSet acc.1 (pixelRow cfg vy r) (pixelColumn cfg vx c))) := by
  unfold drawPixel
  cases spriteBit b c <;> simp

theorem wf_drawPixel {cfg : Config} (vx vy : Byte) (r : Nat) (b : Byte) {acc : Blit} (c : Nat)
    (h : Bitmap.wf cfg acc.1) : Bitmap.wf cfg (drawPixel cfg vx vy r b acc c).1 := by
  unfold drawPixel
  split
  · exact Bitmap.wf_toggle (pixelRow_lt ..) (pixelColumn_lt ..) h
  · exact h

theorem wf_drawRow {cfg : Config} (vx vy : Byte) (r : Nat) (b : Byte) {acc : Blit} (h : Bitmap.wf cfg acc.1) :
    Bitmap.wf cfg (drawRow cfg vx vy r b acc).1 := by
  unfold drawRow
  generalize [0, 1, 2, 3, 4, 5, 6, 7] = cs
  induction cs generalizing acc with
  | nil => exact h
  | cons c cs ih => exact ih (wf_drawPixel vx vy r b c h)

theorem wf_drawRows {cfg : Config} (vx vy : Byte) (bytes : List Byte) (r : Nat) {acc : Blit} (h : Bitmap.wf cfg acc.1) :
    Bitmap.wf cfg (drawRows cfg vx vy r bytes acc).1 := by
  induction bytes generalizing r acc with
  | nil => exact h
  | cons b bytes ih => exact ih (r + 1) (wf_drawRow vx vy r b h)

/-- Drawing keeps the canonical form. -/
theorem wf_drawSprite {cfg : Config} {fb : Bitmap} (bytes : List Byte) (vx vy : Byte) (h : Bitmap.wf cfg fb) :
    Bitmap.wf cfg (drawSprite cfg fb bytes vx vy).1 :=
  wf_drawRows vx vy bytes 0 h

end Sys2Proof.Machine
end

