-- ==== Sys2Proof/Laws/Encoding.lean ====
section
/-! SUPPORT. The fields of an assembled word (30_encoding.md R61, R63), and a word put together again from its fields. Each is shown
bit by bit. -/

namespace Sys2Proof

/-! ### Bytes -/

@[simp] theorem joinBytes_high_low (w : Word) : joinBytes (highByte w) (lowByte w) = w := by
  apply BitVec.eq_of_getLsbD_eq
  intro k hk
  interval_cases k <;> simp [joinBytes, highByte, lowByte]

@[simp] theorem highByte_joinBytes (hi lo : Byte) : highByte (joinBytes hi lo) = hi := by
  apply BitVec.eq_of_getLsbD_eq
  intro k hk
  interval_cases k <;> simp [joinBytes, highByte]

@[simp] theorem lowByte_joinBytes (hi lo : Byte) : lowByte (joinBytes hi lo) = lo := by
  apply BitVec.eq_of_getLsbD_eq
  intro k hk
  interval_cases k <;> simp [joinBytes, lowByte]

/-! ### Fields of assembled words -/

@[simp] theorem familyField_wordA (f : Nibble) (nnn : Addr) : familyField (wordA f nnn) = f := by
  apply BitVec.eq_of_getLsbD_eq
  intro k hk
  interval_cases k <;> simp [familyField, wordA]

@[simp] theorem addrField_wordA (f : Nibble) (nnn : Addr) : addrField (wordA f nnn) = nnn := by
  apply BitVec.eq_of_getLsbD_eq
  intro k hk
  interval_cases k <;> simp [addrField, wordA]

@[simp] theorem familyField_wordXK (f : Nibble) (x : RegIdx) (kk : Byte) : familyField (wordXK f x kk) = f := by
  apply BitVec.eq_of_getLsbD_eq
  intro k hk
  interval_cases k <;> simp [familyField, wordXK]

@[simp] theorem xField_wordXK (f : Nibble) (x : RegIdx) (kk : Byte) : xField (wordXK f x kk) = x := by
  apply BitVec.eq_of_getLsbD_eq
  intro k hk
  interval_cases k <;> simp [xField, wordXK]

@[simp] theorem kkField_wordXK (f : Nibble) (x : RegIdx) (kk : Byte) : kkField (wordXK f x kk) = kk := by
  apply BitVec.eq_of_getLsbD_eq
  intro k hk
  interval_cases k <;> simp [kkField, wordXK]

@[simp] theorem familyField_wordXYN (f : Nibble) (x y : RegIdx) (n : Nibble) : familyField (wordXYN f x y n) = f := by
  apply BitVec.eq_of_getLsbD_eq
  intro k hk
  interval_cases k <;> simp [familyField, wordXYN]

@[simp] theorem xField_wordXYN (f : Nibble) (x y : RegIdx) (n : Nibble) : xField (wordXYN f x y n) = x := by
  apply BitVec.eq_of_getLsbD_eq
  intro k hk
  interval_cases k <;> simp [xField, wordXYN]

@[simp] theorem yField_wordXYN (f : Nibble) (x y : RegIdx) (n : Nibble) : yField (wordXYN f x y n) = y := by
  apply BitVec.eq_of_getLsbD_eq
  intro k hk
  interval_cases k <;> simp [yField, wordXYN]

@[simp] theorem nibbleField_wordXYN (f : Nibble) (x y : RegIdx) (n : Nibble) : nibbleField (wordXYN f x y n) = n := by
  apply BitVec.eq_of_getLsbD_eq
  intro k hk
  interval_cases k <;> simp [nibbleField, wordXYN]

/-! ### Words from their fields -/

theorem wordA_fields (w : Word) : wordA (familyField w) (addrField w) = w := by
  apply BitVec.eq_of_getLsbD_eq
  intro k hk
  interval_cases k <;> simp [familyField, addrField, wordA]

theorem wordXK_fields (w : Word) : wordXK (familyField w) (xField w) (kkField w) = w := by
  apply BitVec.eq_of_getLsbD_eq
  intro k hk
  interval_cases k <;> simp [familyField, xField, kkField, wordXK]

theorem wordXYN_fields (w : Word) : wordXYN (familyField w) (xField w) (yField w) (nibbleField w) = w := by
  apply BitVec.eq_of_getLsbD_eq
  intro k hk
  interval_cases k <;> simp [familyField, xField, yField, nibbleField, wordXYN]

/-! ### No assembled word outside family 0 is an exact match -/

theorem ne_exactMatch {w : Word} (h : familyField w ≠ 0x0#4) : w ≠ 0x00E0#16 ∧ w ≠ 0x00EE#16 := by
  constructor <;> (rintro rfl; exact h (by decide))

theorem wordA_ne_exactMatch (f : Nibble) (nnn : Addr) (h : f ≠ 0x0#4) :
    wordA f nnn ≠ 0x00E0#16 ∧ wordA f nnn ≠ 0x00EE#16 := ne_exactMatch (by simpa using h)

theorem wordXK_ne_exactMatch (f : Nibble) (x : RegIdx) (kk : Byte) (h : f ≠ 0x0#4) :
    wordXK f x kk ≠ 0x00E0#16 ∧ wordXK f x kk ≠ 0x00EE#16 := ne_exactMatch (by simpa using h)

theorem wordXYN_ne_exactMatch (f : Nibble) (x y : RegIdx) (n : Nibble) (h : f ≠ 0x0#4) :
    wordXYN f x y n ≠ 0x00E0#16 ∧ wordXYN f x y n ≠ 0x00EE#16 := ne_exactMatch (by simpa using h)

/-! ### Fields in the integers -/

theorem familyField_toNat (w : Word) : (familyField w).toNat = w.toNat / 4096 := by
  have := w.isLt
  simp only [familyField, BitVec.extractLsb'_toNat]
  omega

theorem nibbleField_toNat (w : Word) : (nibbleField w).toNat = w.toNat % 16 := by
  simp [nibbleField, BitVec.extractLsb'_toNat]

theorem kkField_toNat (w : Word) : (kkField w).toNat = w.toNat % 256 := by
  simp [kkField, BitVec.extractLsb'_toNat]

/-- A word of family 0 that is neither exact match has an address field that is neither of theirs. -/
theorem sysOperandOk_of_family0 {w : Word} (hf : familyField w = 0x0#4) (hc : w ≠ 0x00E0#16) (hr : w ≠ 0x00EE#16) :
    sysOperandOk (addrField w) = true := by
  have hw := wordA_fields w
  rw [hf] at hw
  simp only [sysOperandOk, Bool.and_eq_true, bne_iff_ne]
  refine ⟨fun e => hc ?_, fun e => hr ?_⟩ <;> rw [← hw, e] <;> decide

end Sys2Proof
end

