-- ==== Sys2Proof/Laws/Memory.lean ====
section
/-! SUPPORT. The laws of memory as data: read after write, the canonical form kept by every operation, equal contents are equal
data. -/

namespace Sys2Proof.Machine

theorem Memory.listed_eq_none_of_lt (m : Memory) (a : Nat) (h : ∀ p ∈ m, a < p.1) : Memory.listed m a = none := by
  induction m with
  | nil => rfl
  | cons p m ih =>
    have hp := h p (by simp)
    rw [Memory.listed, if_neg (by omega), ih fun q hq => h q (by simp [hq])]

theorem Memory.listed_drop_same (m : Memory) (a : Nat) : Memory.listed (Memory.drop m a) a = none := by
  induction m with
  | nil => rfl
  | cons p m ih =>
    by_cases h : p.1 = a
    · simpa [Memory.drop, h] using ih
    · simpa [Memory.drop, h, Memory.listed] using ih

theorem Memory.listed_drop_ne (m : Memory) {a b : Nat} (hab : b ≠ a) :
    Memory.listed (Memory.drop m a) b = Memory.listed m b := by
  induction m with
  | nil => rfl
  | cons p m ih =>
    by_cases h : p.1 = a
    · have hb : p.1 ≠ b := fun e => hab (e.symm.trans h)
      rw [Memory.listed, if_neg hb, ← ih]
      simp [Memory.drop, h]
    · by_cases hb : p.1 = b
      · simp [Memory.drop, Memory.listed, hb, hab]
      · simpa [Memory.drop, h, Memory.listed, hb] using ih

theorem Memory.listed_place_same (m : Memory) (a : Nat) (v : Byte) (h : Memory.listed m a = none) :
    Memory.listed (Memory.place m a v) a = some v := by
  induction m with
  | nil => simp [Memory.place, Memory.listed]
  | cons p m ih =>
    by_cases hp : p.1 = a
    · simp [Memory.listed, hp] at h
    · rw [Memory.listed, if_neg hp] at h
      by_cases hlt : a < p.1
      · simp [Memory.place, hlt, Memory.listed]
      · simp [Memory.place, hlt, Memory.listed, hp, ih h]

theorem Memory.listed_place_ne (m : Memory) {a b : Nat} (v : Byte) (hab : b ≠ a) :
    Memory.listed (Memory.place m a v) b = Memory.listed m b := by
  induction m with
  | nil => simp [Memory.place, Memory.listed, Ne.symm hab]
  | cons p m ih =>
    by_cases hlt : a < p.1
    · simp [Memory.place, hlt, Memory.listed, Ne.symm hab]
    · by_cases hb : p.1 = b
      · rw [Memory.place, if_neg hlt, Memory.listed, Memory.listed, if_pos hb, if_pos hb]
      · rw [Memory.place, if_neg hlt, Memory.listed, Memory.listed, if_neg hb, if_neg hb, ih]

/-- A read after a write to the same address gives the byte written. -/
theorem Memory.read_write_same (c : Config) (m : Memory) (a : Nat) (v : Byte) :
    Memory.read c (Memory.write c m a v) a = v := by
  unfold Memory.read Memory.write
  split
  · next h => rw [Memory.listed_drop_same, Option.getD_none, h]
  · rw [Memory.listed_place_same _ _ _ (Memory.listed_drop_same m a), Option.getD_some]

/-- A write leaves every other address alone. -/
theorem Memory.read_write_ne (c : Config) (m : Memory) {a b : Nat} (v : Byte) (hab : b ≠ a) :
    Memory.read c (Memory.write c m a v) b = Memory.read c m b := by
  unfold Memory.read Memory.write
  split
  · rw [Memory.listed_drop_ne m hab]
  · rw [Memory.listed_place_ne _ v hab, Memory.listed_drop_ne m hab]

theorem Memory.read_write (c : Config) (m : Memory) (a b : Nat) (v : Byte) :
    Memory.read c (Memory.write c m a v) b = if b = a then v else Memory.read c m b := by
  split
  · next h => rw [h, Memory.read_write_same]
  · next h => exact Memory.read_write_ne c m v h

theorem Memory.wf_nil (c : Config) : Memory.wf c [] := by simp [Memory.wf]

theorem Memory.wf_drop {c : Config} {m : Memory} (a : Nat) (h : Memory.wf c m) : Memory.wf c (Memory.drop m a) :=
  ⟨h.1.sublist List.filter_sublist, fun p hp => h.2 p (List.mem_filter.1 hp).1⟩

theorem Memory.mem_place (m : Memory) (a : Nat) (v : Byte) (p : Host.Cell) :
    p ∈ Memory.place m a v ↔ p = (a, v) ∨ p ∈ m := by
  induction m with
  | nil => simp [Memory.place]
  | cons q m ih =>
    by_cases hlt : a < q.1
    · simp [Memory.place, hlt]
    · simp only [Memory.place, hlt, if_false, List.mem_cons, ih]
      tauto

theorem Memory.place_rising (m : Memory) (a : Nat) (v : Byte) (h : m.Pairwise (fun p q => p.1 < q.1))
    (ha : ∀ p ∈ m, p.1 ≠ a) : (Memory.place m a v).Pairwise (fun p q => p.1 < q.1) := by
  induction m with
  | nil => simp [Memory.place]
  | cons q m ih =>
    obtain ⟨hq, hm⟩ := List.pairwise_cons.1 h
    by_cases hlt : a < q.1
    · simp only [Memory.place, hlt, if_true]
      refine List.pairwise_cons.2 ⟨fun p hp => ?_, h⟩
      rcases List.mem_cons.1 hp with rfl | hp
      · exact hlt
      · exact Nat.lt_trans hlt (hq p hp)
    · simp only [Memory.place, hlt, if_false]
      refine List.pairwise_cons.2 ⟨fun p hp => ?_, ih hm fun p hp => ha p (by simp [hp])⟩
      rcases (Memory.mem_place m a v p).1 hp with rfl | hp
      · have := ha q (by simp)
        show q.1 < a
        omega
      · exact hq p hp

/-- A write inside the address space keeps the canonical form. -/
theorem Memory.wf_write {c : Config} {m : Memory} {a : Nat} (v : Byte) (ha : a < memorySize) (h : Memory.wf c m) :
    Memory.wf c (Memory.write c m a v) := by
  have hd := Memory.wf_drop a h
  unfold Memory.write
  split
  · exact hd
  · next hv =>
    refine ⟨Memory.place_rising _ _ _ hd.1 fun p hp => ?_, fun p hp => ?_⟩
    · simpa [bne_iff_ne] using (List.mem_filter.1 hp).2
    · rcases (Memory.mem_place _ a v p).1 hp with rfl | hp
      · exact ⟨ha, hv⟩
      · exact hd.2 p hp

theorem Memory.listed_of_mem {m : Memory} (h : m.Pairwise (fun p q => p.1 < q.1)) {p : Host.Cell} (hp : p ∈ m) :
    Memory.listed m p.1 = some p.2 := by
  induction m with
  | nil => simp at hp
  | cons q m ih =>
    obtain ⟨hq, hm⟩ := List.pairwise_cons.1 h
    rcases List.mem_cons.1 hp with rfl | hp'
    · simp [Memory.listed]
    · have := hq p hp'
      rw [Memory.listed, if_neg (by omega), ih hm hp']

theorem Memory.mem_of_listed {m : Memory} {a : Nat} {v : Byte} (h : Memory.listed m a = some v) : (a, v) ∈ m := by
  induction m with
  | nil => simp [Memory.listed] at h
  | cons q m ih =>
    rw [Memory.listed] at h
    split at h
    · next hq => simp only [Option.some.injEq] at h; subst hq h; simp
    · simp [ih h]

/-- In canonical form, an address is listed iff it differs from the reset contents; so what is listed can be read off. -/
theorem Memory.mem_iff_read {c : Config} {m : Memory} (h : Memory.wf c m) (p : Host.Cell) :
    p ∈ m ↔ Memory.read c m p.1 = p.2 ∧ p.2 ≠ unlistedByte c p.1 := by
  constructor
  · intro hp
    exact ⟨by rw [Memory.read, Memory.listed_of_mem h.1 hp, Option.getD_some], (h.2 p hp).2⟩
  · rintro ⟨hr, hne⟩
    unfold Memory.read at hr
    cases hl : Memory.listed m p.1 with
    | none => rw [hl, Option.getD_none] at hr; exact absurd hr.symm hne
    | some v => rw [hl, Option.getD_some] at hr; subst hr; exact Memory.mem_of_listed hl

/-- Equal contents are equal data. -/
theorem Memory.ext_of_wf {c : Config} {m m' : Memory} (h : Memory.wf c m) (h' : Memory.wf c m')
    (hread : ∀ a, Memory.read c m a = Memory.read c m' a) : m = m' := by
  have hperm : m.Perm m' := by
    refine (List.perm_ext_iff_of_nodup ?_ ?_).2 fun p => ?_
    · exact h.1.imp fun hlt e => by rw [e] at hlt; exact Nat.lt_irrefl _ hlt
    · exact h'.1.imp fun hlt e => by rw [e] at hlt; exact Nat.lt_irrefl _ hlt
    · rw [Memory.mem_iff_read h, Memory.mem_iff_read h', hread]
  exact hperm.eq_of_pairwise (le := fun p q => p.1 < q.1)
    (fun p q _ _ hpq hqp => absurd hqp (Nat.lt_asymm hpq)) h.1 h'.1

end Sys2Proof.Machine
end

