-- ==== Sys2Proof/Laws/State.lean ====
section
/-! SUPPORT. One lemma per field (and per accessor) per update of the state, each true by rfl, so that no later proof unfolds a
record update. -/

namespace Sys2Proof.Machine

/-! ### `State.setV` -/

@[simp] theorem State.setV_config (s : State) (x : RegIdx) (b : Byte) : (s.setV x b).config = s.config := rfl
@[simp] theorem State.setV_v (s : State) (x : RegIdx) (b : Byte) : (s.setV x b).v = s.v.set x.toNat b x.isLt := rfl
@[simp] theorem State.setV_i (s : State) (x : RegIdx) (b : Byte) : (s.setV x b).i = s.i := rfl
@[simp] theorem State.setV_pc (s : State) (x : RegIdx) (b : Byte) : (s.setV x b).pc = s.pc := rfl
@[simp] theorem State.setV_sp (s : State) (x : RegIdx) (b : Byte) : (s.setV x b).sp = s.sp := rfl
@[simp] theorem State.setV_stack (s : State) (x : RegIdx) (b : Byte) : (s.setV x b).stack = s.stack := rfl
@[simp] theorem State.setV_dt (s : State) (x : RegIdx) (b : Byte) : (s.setV x b).dt = s.dt := rfl
@[simp] theorem State.setV_st (s : State) (x : RegIdx) (b : Byte) : (s.setV x b).st = s.st := rfl
@[simp] theorem State.setV_input (s : State) (x : RegIdx) (b : Byte) : (s.setV x b).input = s.input := rfl
@[simp] theorem State.setV_mem (s : State) (x : RegIdx) (b : Byte) : (s.setV x b).mem = s.mem := rfl
@[simp] theorem State.setV_kw (s : State) (x : RegIdx) (b : Byte) : (s.setV x b).kw = s.kw := rfl
@[simp] theorem State.setV_fr (s : State) (x : RegIdx) (b : Byte) : (s.setV x b).fr = s.fr := rfl
@[simp] theorem State.setV_mode (s : State) (x : RegIdx) (b : Byte) : (s.setV x b).mode = s.mode := rfl
@[simp] theorem State.setV_fb (s : State) (x : RegIdx) (b : Byte) : (s.setV x b).fb = s.fb := rfl
@[simp] theorem State.setV_inputQueue (s : State) (x : RegIdx) (b : Byte) : (s.setV x b).inputQueue = s.inputQueue := rfl
@[simp] theorem State.setV_turns (s : State) (x : RegIdx) (b : Byte) : (s.setV x b).turns = s.turns := rfl
@[simp] theorem State.setV_events (s : State) (x : RegIdx) (b : Byte) : (s.setV x b).events = s.events := rfl
@[simp] theorem State.setV_draws (s : State) (x : RegIdx) (b : Byte) : (s.setV x b).draws = s.draws := rfl
@[simp] theorem State.setV_trace (s : State) (x : RegIdx) (b : Byte) : (s.setV x b).trace = s.trace := rfl
@[simp] theorem State.setV_readByte (s : State) (x : RegIdx) (b : Byte) (k : Nat) : (s.setV x b).readByte k = s.readByte k := rfl
@[simp] theorem State.setV_slot (s : State) (x : RegIdx) (b : Byte) (k : Fin 16) : (s.setV x b).slot k = s.slot k := rfl
@[simp] theorem State.setV_pixel (s : State) (x : RegIdx) (b : Byte) (r c : Nat) : (s.setV x b).pixel r c = s.pixel r c := rfl

/-! ### `State.setFlag` -/

@[simp] theorem State.setFlag_config (s : State) (flag : Bool) : (s.setFlag flag).config = s.config := rfl
@[simp] theorem State.setFlag_v (s : State) (flag : Bool) : (s.setFlag flag).v = s.v.set 15 (if flag then 0x01#8 else 0x00#8) := rfl
@[simp] theorem State.setFlag_i (s : State) (flag : Bool) : (s.setFlag flag).i = s.i := rfl
@[simp] theorem State.setFlag_pc (s : State) (flag : Bool) : (s.setFlag flag).pc = s.pc := rfl
@[simp] theorem State.setFlag_sp (s : State) (flag : Bool) : (s.setFlag flag).sp = s.sp := rfl
@[simp] theorem State.setFlag_stack (s : State) (flag : Bool) : (s.setFlag flag).stack = s.stack := rfl
@[simp] theorem State.setFlag_dt (s : State) (flag : Bool) : (s.setFlag flag).dt = s.dt := rfl
@[simp] theorem State.setFlag_st (s : State) (flag : Bool) : (s.setFlag flag).st = s.st := rfl
@[simp] theorem State.setFlag_input (s : State) (flag : Bool) : (s.setFlag flag).input = s.input := rfl
@[simp] theorem State.setFlag_mem (s : State) (flag : Bool) : (s.setFlag flag).mem = s.mem := rfl
@[simp] theorem State.setFlag_kw (s : State) (flag : Bool) : (s.setFlag flag).kw = s.kw := rfl
@[simp] theorem State.setFlag_fr (s : State) (flag : Bool) : (s.setFlag flag).fr = s.fr := rfl
@[simp] theorem State.setFlag_mode (s : State) (flag : Bool) : (s.setFlag flag).mode = s.mode := rfl
@[simp] theorem State.setFlag_fb (s : State) (flag : Bool) : (s.setFlag flag).fb = s.fb := rfl
@[simp] theorem State.setFlag_inputQueue (s : State) (flag : Bool) : (s.setFlag flag).inputQueue = s.inputQueue := rfl
@[simp] theorem State.setFlag_turns (s : State) (flag : Bool) : (s.setFlag flag).turns = s.turns := rfl
@[simp] theorem State.setFlag_events (s : State) (flag : Bool) : (s.setFlag flag).events = s.events := rfl
@[simp] theorem State.setFlag_draws (s : State) (flag : Bool) : (s.setFlag flag).draws = s.draws := rfl
@[simp] theorem State.setFlag_trace (s : State) (flag : Bool) : (s.setFlag flag).trace = s.trace := rfl
@[simp] theorem State.setFlag_readByte (s : State) (flag : Bool) (k : Nat) : (s.setFlag flag).readByte k = s.readByte k := rfl
@[simp] theorem State.setFlag_slot (s : State) (flag : Bool) (k : Fin 16) : (s.setFlag flag).slot k = s.slot k := rfl
@[simp] theorem State.setFlag_pixel (s : State) (flag : Bool) (r c : Nat) : (s.setFlag flag).pixel r c = s.pixel r c := rfl

/-! ### `State.setI` -/

@[simp] theorem State.setI_config (s : State) (a : Word) : (s.setI a).config = s.config := rfl
@[simp] theorem State.setI_v (s : State) (a : Word) : (s.setI a).v = s.v := rfl
@[simp] theorem State.setI_i (s : State) (a : Word) : (s.setI a).i = a := rfl
@[simp] theorem State.setI_pc (s : State) (a : Word) : (s.setI a).pc = s.pc := rfl
@[simp] theorem State.setI_sp (s : State) (a : Word) : (s.setI a).sp = s.sp := rfl
@[simp] theorem State.setI_stack (s : State) (a : Word) : (s.setI a).stack = s.stack := rfl
@[simp] theorem State.setI_dt (s : State) (a : Word) : (s.setI a).dt = s.dt := rfl
@[simp] theorem State.setI_st (s : State) (a : Word) : (s.setI a).st = s.st := rfl
@[simp] theorem State.setI_input (s : State) (a : Word) : (s.setI a).input = s.input := rfl
@[simp] theorem State.setI_mem (s : State) (a : Word) : (s.setI a).mem = s.mem := rfl
@[simp] theorem State.setI_kw (s : State) (a : Word) : (s.setI a).kw = s.kw := rfl
@[simp] theorem State.setI_fr (s : State) (a : Word) : (s.setI a).fr = s.fr := rfl
@[simp] theorem State.setI_mode (s : State) (a : Word) : (s.setI a).mode = s.mode := rfl
@[simp] theorem State.setI_fb (s : State) (a : Word) : (s.setI a).fb = s.fb := rfl
@[simp] theorem State.setI_inputQueue (s : State) (a : Word) : (s.setI a).inputQueue = s.inputQueue := rfl
@[simp] theorem State.setI_turns (s : State) (a : Word) : (s.setI a).turns = s.turns := rfl
@[simp] theorem State.setI_events (s : State) (a : Word) : (s.setI a).events = s.events := rfl
@[simp] theorem State.setI_draws (s : State) (a : Word) : (s.setI a).draws = s.draws := rfl
@[simp] theorem State.setI_trace (s : State) (a : Word) : (s.setI a).trace = s.trace := rfl
@[simp] theorem State.setI_getV (s : State) (a : Word) (y : RegIdx) : (s.setI a).getV y = s.getV y := rfl
@[simp] theorem State.setI_readByte (s : State) (a : Word) (k : Nat) : (s.setI a).readByte k = s.readByte k := rfl
@[simp] theorem State.setI_slot (s : State) (a : Word) (k : Fin 16) : (s.setI a).slot k = s.slot k := rfl
@[simp] theorem State.setI_pixel (s : State) (a : Word) (r c : Nat) : (s.setI a).pixel r c = s.pixel r c := rfl

/-! ### `State.setPc` -/

@[simp] theorem State.setPc_config (s : State) (a : Word) : (s.setPc a).config = s.config := rfl
@[simp] theorem State.setPc_v (s : State) (a : Word) : (s.setPc a).v = s.v := rfl
@[simp] theorem State.setPc_i (s : State) (a : Word) : (s.setPc a).i = s.i := rfl
@[simp] theorem State.setPc_pc (s : State) (a : Word) : (s.setPc a).pc = a := rfl
@[simp] theorem State.setPc_sp (s : State) (a : Word) : (s.setPc a).sp = s.sp := rfl
@[simp] theorem State.setPc_stack (s : State) (a : Word) : (s.setPc a).stack = s.stack := rfl
@[simp] theorem State.setPc_dt (s : State) (a : Word) : (s.setPc a).dt = s.dt := rfl
@[simp] theorem State.setPc_st (s : State) (a : Word) : (s.setPc a).st = s.st := rfl
@[simp] theorem State.setPc_input (s : State) (a : Word) : (s.setPc a).input = s.input := rfl
@[simp] theorem State.setPc_mem (s : State) (a : Word) : (s.setPc a).mem = s.mem := rfl
@[simp] theorem State.setPc_kw (s : State) (a : Word) : (s.setPc a).kw = s.kw := rfl
@[simp] theorem State.setPc_fr (s : State) (a : Word) : (s.setPc a).fr = s.fr := rfl
@[simp] theorem State.setPc_mode (s : State) (a : Word) : (s.setPc a).mode = s.mode := rfl
@[simp] theorem State.setPc_fb (s : State) (a : Word) : (s.setPc a).fb = s.fb := rfl
@[simp] theorem State.setPc_inputQueue (s : State) (a : Word) : (s.setPc a).inputQueue = s.inputQueue := rfl
@[simp] theorem State.setPc_turns (s : State) (a : Word) : (s.setPc a).turns = s.turns := rfl
@[simp] theorem State.setPc_events (s : State) (a : Word) : (s.setPc a).events = s.events := rfl
@[simp] theorem State.setPc_draws (s : State) (a : Word) : (s.setPc a).draws = s.draws := rfl
@[simp] theorem State.setPc_trace (s : State) (a : Word) : (s.setPc a).trace = s.trace := rfl
@[simp] theorem State.setPc_getV (s : State) (a : Word) (y : RegIdx) : (s.setPc a).getV y = s.getV y := rfl
@[simp] theorem State.setPc_readByte (s : State) (a : Word) (k : Nat) : (s.setPc a).readByte k = s.readByte k := rfl
@[simp] theorem State.setPc_slot (s : State) (a : Word) (k : Fin 16) : (s.setPc a).slot k = s.slot k := rfl
@[simp] theorem State.setPc_pixel (s : State) (a : Word) (r c : Nat) : (s.setPc a).pixel r c = s.pixel r c := rfl

/-! ### `State.setDt` -/

@[simp] theorem State.setDt_config (s : State) (b : Byte) : (s.setDt b).config = s.config := rfl
@[simp] theorem State.setDt_v (s : State) (b : Byte) : (s.setDt b).v = s.v := rfl
@[simp] theorem State.setDt_i (s : State) (b : Byte) : (s.setDt b).i = s.i := rfl
@[simp] theorem State.setDt_pc (s : State) (b : Byte) : (s.setDt b).pc = s.pc := rfl
@[simp] theorem State.setDt_sp (s : State) (b : Byte) : (s.setDt b).sp = s.sp := rfl
@[simp] theorem State.setDt_stack (s : State) (b : Byte) : (s.setDt b).stack = s.stack := rfl
@[simp] theorem State.setDt_dt (s : State) (b : Byte) : (s.setDt b).dt = b := rfl
@[simp] theorem State.setDt_st (s : State) (b : Byte) : (s.setDt b).st = s.st := rfl
@[simp] theorem State.setDt_input (s : State) (b : Byte) : (s.setDt b).input = s.input := rfl
@[simp] theorem State.setDt_mem (s : State) (b : Byte) : (s.setDt b).mem = s.mem := rfl
@[simp] theorem State.setDt_kw (s : State) (b : Byte) : (s.setDt b).kw = s.kw := rfl
@[simp] theorem State.setDt_fr (s : State) (b : Byte) : (s.setDt b).fr = s.fr := rfl
@[simp] theorem State.setDt_mode (s : State) (b : Byte) : (s.setDt b).mode = s.mode := rfl
@[simp] theorem State.setDt_fb (s : State) (b : Byte) : (s.setDt b).fb = s.fb := rfl
@[simp] theorem State.setDt_inputQueue (s : State) (b : Byte) : (s.setDt b).inputQueue = s.inputQueue := rfl
@[simp] theorem State.setDt_turns (s : State) (b : Byte) : (s.setDt b).turns = s.turns := rfl
@[simp] theorem State.setDt_events (s : State) (b : Byte) : (s.setDt b).events = s.events := rfl
@[simp] theorem State.setDt_draws (s : State) (b : Byte) : (s.setDt b).draws = s.draws := rfl
@[simp] theorem State.setDt_trace (s : State) (b : Byte) : (s.setDt b).trace = s.trace := rfl
@[simp] theorem State.setDt_getV (s : State) (b : Byte) (y : RegIdx) : (s.setDt b).getV y = s.getV y := rfl
@[simp] theorem State.setDt_readByte (s : State) (b : Byte) (k : Nat) : (s.setDt b).readByte k = s.readByte k := rfl
@[simp] theorem State.setDt_slot (s : State) (b : Byte) (k : Fin 16) : (s.setDt b).slot k = s.slot k := rfl
@[simp] theorem State.setDt_pixel (s : State) (b : Byte) (r c : Nat) : (s.setDt b).pixel r c = s.pixel r c := rfl

/-! ### `State.setSt` -/

@[simp] theorem State.setSt_config (s : State) (b : Byte) : (s.setSt b).config = s.config := rfl
@[simp] theorem State.setSt_v (s : State) (b : Byte) : (s.setSt b).v = s.v := rfl
@[simp] theorem State.setSt_i (s : State) (b : Byte) : (s.setSt b).i = s.i := rfl
@[simp] theorem State.setSt_pc (s : State) (b : Byte) : (s.setSt b).pc = s.pc := rfl
@[simp] theorem State.setSt_sp (s : State) (b : Byte) : (s.setSt b).sp = s.sp := rfl
@[simp] theorem State.setSt_stack (s : State) (b : Byte) : (s.setSt b).stack = s.stack := rfl
@[simp] theorem State.setSt_dt (s : State) (b : Byte) : (s.setSt b).dt = s.dt := rfl
@[simp] theorem State.setSt_st (s : State) (b : Byte) : (s.setSt b).st = b := rfl
@[simp] theorem State.setSt_input (s : State) (b : Byte) : (s.setSt b).input = s.input := rfl
@[simp] theorem State.setSt_mem (s : State) (b : Byte) : (s.setSt b).mem = s.mem := rfl
@[simp] theorem State.setSt_kw (s : State) (b : Byte) : (s.setSt b).kw = s.kw := rfl
@[simp] theorem State.setSt_fr (s : State) (b : Byte) : (s.setSt b).fr = s.fr := rfl
@[simp] theorem State.setSt_mode (s : State) (b : Byte) : (s.setSt b).mode = s.mode := rfl
@[simp] theorem State.setSt_fb (s : State) (b : Byte) : (s.setSt b).fb = s.fb := rfl
@[simp] theorem State.setSt_inputQueue (s : State) (b : Byte) : (s.setSt b).inputQueue = s.inputQueue := rfl
@[simp] theorem State.setSt_turns (s : State) (b : Byte) : (s.setSt b).turns = s.turns := rfl
@[simp] theorem State.setSt_events (s : State) (b : Byte) : (s.setSt b).events = s.events := rfl
@[simp] theorem State.setSt_draws (s : State) (b : Byte) : (s.setSt b).draws = s.draws := rfl
@[simp] theorem State.setSt_trace (s : State) (b : Byte) : (s.setSt b).trace = s.trace := rfl
@[simp] theorem State.setSt_getV (s : State) (b : Byte) (y : RegIdx) : (s.setSt b).getV y = s.getV y := rfl
@[simp] theorem State.setSt_readByte (s : State) (b : Byte) (k : Nat) : (s.setSt b).readByte k = s.readByte k := rfl
@[simp] theorem State.setSt_slot (s : State) (b : Byte) (k : Fin 16) : (s.setSt b).slot k = s.slot k := rfl
@[simp] theorem State.setSt_pixel (s : State) (b : Byte) (r c : Nat) : (s.setSt b).pixel r c = s.pixel r c := rfl

/-! ### `State.setKw` -/

@[simp] theorem State.setKw_config (s : State) (h : Option RegIdx) : (s.setKw h).config = s.config := rfl
@[simp] theorem State.setKw_v (s : State) (h : Option RegIdx) : (s.setKw h).v = s.v := rfl
@[simp] theorem State.setKw_i (s : State) (h : Option RegIdx) : (s.setKw h).i = s.i := rfl
@[simp] theorem State.setKw_pc (s : State) (h : Option RegIdx) : (s.setKw h).pc = s.pc := rfl
@[simp] theorem State.setKw_sp (s : State) (h : Option RegIdx) : (s.setKw h).sp = s.sp := rfl
@[simp] theorem State.setKw_stack (s : State) (h : Option RegIdx) : (s.setKw h).stack = s.stack := rfl
@[simp] theorem State.setKw_dt (s : State) (h : Option RegIdx) : (s.setKw h).dt = s.dt := rfl
@[simp] theorem State.setKw_st (s : State) (h : Option RegIdx) : (s.setKw h).st = s.st := rfl
@[simp] theorem State.setKw_input (s : State) (h : Option RegIdx) : (s.setKw h).input = s.input := rfl
@[simp] theorem State.setKw_mem (s : State) (h : Option RegIdx) : (s.setKw h).mem = s.mem := rfl
@[simp] theorem State.setKw_kw (s : State) (h : Option RegIdx) : (s.setKw h).kw = h := rfl
@[simp] theorem State.setKw_fr (s : State) (h : Option RegIdx) : (s.setKw h).fr = s.fr := rfl
@[simp] theorem State.setKw_mode (s : State) (h : Option RegIdx) : (s.setKw h).mode = s.mode := rfl
@[simp] theorem State.setKw_fb (s : State) (h : Option RegIdx) : (s.setKw h).fb = s.fb := rfl
@[simp] theorem State.setKw_inputQueue (s : State) (h : Option RegIdx) : (s.setKw h).inputQueue = s.inputQueue := rfl
@[simp] theorem State.setKw_turns (s : State) (h : Option RegIdx) : (s.setKw h).turns = s.turns := rfl
@[simp] theorem State.setKw_events (s : State) (h : Option RegIdx) : (s.setKw h).events = s.events := rfl
@[simp] theorem State.setKw_draws (s : State) (h : Option RegIdx) : (s.setKw h).draws = s.draws := rfl
@[simp] theorem State.setKw_trace (s : State) (h : Option RegIdx) : (s.setKw h).trace = s.trace := rfl
@[simp] theorem State.setKw_getV (s : State) (h : Option RegIdx) (y : RegIdx) : (s.setKw h).getV y = s.getV y := rfl
@[simp] theorem State.setKw_readByte (s : State) (h : Option RegIdx) (k : Nat) : (s.setKw h).readByte k = s.readByte k := rfl
@[simp] theorem State.setKw_slot (s : State) (h : Option RegIdx) (k : Fin 16) : (s.setKw h).slot k = s.slot k := rfl
@[simp] theorem State.setKw_pixel (s : State) (h : Option RegIdx) (r c : Nat) : (s.setKw h).pixel r c = s.pixel r c := rfl

/-! ### `State.setInput` -/

@[simp] theorem State.setInput_config (s : State) (r : Option Key) : (s.setInput r).config = s.config := rfl
@[simp] theorem State.setInput_v (s : State) (r : Option Key) : (s.setInput r).v = s.v := rfl
@[simp] theorem State.setInput_i (s : State) (r : Option Key) : (s.setInput r).i = s.i := rfl
@[simp] theorem State.setInput_pc (s : State) (r : Option Key) : (s.setInput r).pc = s.pc := rfl
@[simp] theorem State.setInput_sp (s : State) (r : Option Key) : (s.setInput r).sp = s.sp := rfl
@[simp] theorem State.setInput_stack (s : State) (r : Option Key) : (s.setInput r).stack = s.stack := rfl
@[simp] theorem State.setInput_dt (s : State) (r : Option Key) : (s.setInput r).dt = s.dt := rfl
@[simp] theorem State.setInput_st (s : State) (r : Option Key) : (s.setInput r).st = s.st := rfl
@[simp] theorem State.setInput_input (s : State) (r : Option Key) : (s.setInput r).input = r := rfl
@[simp] theorem State.setInput_mem (s : State) (r : Option Key) : (s.setInput r).mem = s.mem := rfl
@[simp] theorem State.setInput_kw (s : State) (r : Option Key) : (s.setInput r).kw = s.kw := rfl
@[simp] theorem State.setInput_fr (s : State) (r : Option Key) : (s.setInput r).fr = s.fr := rfl
@[simp] theorem State.setInput_mode (s : State) (r : Option Key) : (s.setInput r).mode = s.mode := rfl
@[simp] theorem State.setInput_fb (s : State) (r : Option Key) : (s.setInput r).fb = s.fb := rfl
@[simp] theorem State.setInput_inputQueue (s : State) (r : Option Key) : (s.setInput r).inputQueue = s.inputQueue := rfl
@[simp] theorem State.setInput_turns (s : State) (r : Option Key) : (s.setInput r).turns = s.turns := rfl
@[simp] theorem State.setInput_events (s : State) (r : Option Key) : (s.setInput r).events = s.events := rfl
@[simp] theorem State.setInput_draws (s : State) (r : Option Key) : (s.setInput r).draws = s.draws := rfl
@[simp] theorem State.setInput_trace (s : State) (r : Option Key) : (s.setInput r).trace = s.trace := rfl
@[simp] theorem State.setInput_getV (s : State) (r : Option Key) (y : RegIdx) : (s.setInput r).getV y = s.getV y := rfl
@[simp] theorem State.setInput_readByte (s : State) (r : Option Key) (k : Nat) : (s.setInput r).readByte k = s.readByte k := rfl
@[simp] theorem State.setInput_slot (s : State) (r : Option Key) (k : Fin 16) : (s.setInput r).slot k = s.slot k := rfl
@[simp] theorem State.setInput_pixel (s : State) (r : Option Key) (r' c : Nat) : (s.setInput r).pixel r' c = s.pixel r' c := rfl

/-! ### `State.setMode` -/

@[simp] theorem State.setMode_config (s : State) (m : Mode) : (s.setMode m).config = s.config := rfl
@[simp] theorem State.setMode_v (s : State) (m : Mode) : (s.setMode m).v = s.v := rfl
@[simp] theorem State.setMode_i (s : State) (m : Mode) : (s.setMode m).i = s.i := rfl
@[simp] theorem State.setMode_pc (s : State) (m : Mode) : (s.setMode m).pc = s.pc := rfl
@[simp] theorem State.setMode_sp (s : State) (m : Mode) : (s.setMode m).sp = s.sp := rfl
@[simp] theorem State.setMode_stack (s : State) (m : Mode) : (s.setMode m).stack = s.stack := rfl
@[simp] theorem State.setMode_dt (s : State) (m : Mode) : (s.setMode m).dt = s.dt := rfl
@[simp] theorem State.setMode_st (s : State) (m : Mode) : (s.setMode m).st = s.st := rfl
@[simp] theorem State.setMode_input (s : State) (m : Mode) : (s.setMode m).input = s.input := rfl
@[simp] theorem State.setMode_mem (s : State) (m : Mode) : (s.setMode m).mem = s.mem := rfl
@[simp] theorem State.setMode_kw (s : State) (m : Mode) : (s.setMode m).kw = s.kw := rfl
@[simp] theorem State.setMode_fr (s : State) (m : Mode) : (s.setMode m).fr = s.fr := rfl
@[simp] theorem State.setMode_mode (s : State) (m : Mode) : (s.setMode m).mode = m := rfl
@[simp] theorem State.setMode_fb (s : State) (m : Mode) : (s.setMode m).fb = s.fb := rfl
@[simp] theorem State.setMode_inputQueue (s : State) (m : Mode) : (s.setMode m).inputQueue = s.inputQueue := rfl
@[simp] theorem State.setMode_turns (s : State) (m : Mode) : (s.setMode m).turns = s.turns := rfl
@[simp] theorem State.setMode_events (s : State) (m : Mode) : (s.setMode m).events = s.events := rfl
@[simp] theorem State.setMode_draws (s : State) (m : Mode) : (s.setMode m).draws = s.draws := rfl
@[simp] theorem State.setMode_trace (s : State) (m : Mode) : (s.setMode m).trace = s.trace := rfl
@[simp] theorem State.setMode_getV (s : State) (m : Mode) (y : RegIdx) : (s.setMode m).getV y = s.getV y := rfl
@[simp] theorem State.setMode_readByte (s : State) (m : Mode) (k : Nat) : (s.setMode m).readByte k = s.readByte k := rfl
@[simp] theorem State.setMode_slot (s : State) (m : Mode) (k : Fin 16) : (s.setMode m).slot k = s.slot k := rfl
@[simp] theorem State.setMode_pixel (s : State) (m : Mode) (r c : Nat) : (s.setMode m).pixel r c = s.pixel r c := rfl

/-! ### `State.setFr` -/

@[simp] theorem State.setFr_config (s : State) (r : FaultRecord) : (s.setFr r).config = s.config := rfl
@[simp] theorem State.setFr_v (s : State) (r : FaultRecord) : (s.setFr r).v = s.v := rfl
@[simp] theorem State.setFr_i (s : State) (r : FaultRecord) : (s.setFr r).i = s.i := rfl
@[simp] theorem State.setFr_pc (s : State) (r : FaultRecord) : (s.setFr r).pc = s.pc := rfl
@[simp] theorem State.setFr_sp (s : State) (r : FaultRecord) : (s.setFr r).sp = s.sp := rfl
@[simp] theorem State.setFr_stack (s : State) (r : FaultRecord) : (s.setFr r).stack = s.stack := rfl
@[simp] theorem State.setFr_dt (s : State) (r : FaultRecord) : (s.setFr r).dt = s.dt := rfl
@[simp] theorem State.setFr_st (s : State) (r : FaultRecord) : (s.setFr r).st = s.st := rfl
@[simp] theorem State.setFr_input (s : State) (r : FaultRecord) : (s.setFr r).input = s.input := rfl
@[simp] theorem State.setFr_mem (s : State) (r : FaultRecord) : (s.setFr r).mem = s.mem := rfl
@[simp] theorem State.setFr_kw (s : State) (r : FaultRecord) : (s.setFr r).kw = s.kw := rfl
@[simp] theorem State.setFr_fr (s : State) (r : FaultRecord) : (s.setFr r).fr = some r := rfl
@[simp] theorem State.setFr_mode (s : State) (r : FaultRecord) : (s.setFr r).mode = s.mode := rfl
@[simp] theorem State.setFr_fb (s : State) (r : FaultRecord) : (s.setFr r).fb = s.fb := rfl
@[simp] theorem State.setFr_inputQueue (s : State) (r : FaultRecord) : (s.setFr r).inputQueue = s.inputQueue := rfl
@[simp] theorem State.setFr_turns (s : State) (r : FaultRecord) : (s.setFr r).turns = s.turns := rfl
@[simp] theorem State.setFr_events (s : State) (r : FaultRecord) : (s.setFr r).events = s.events := rfl
@[simp] theorem State.setFr_draws (s : State) (r : FaultRecord) : (s.setFr r).draws = s.draws := rfl
@[simp] theorem State.setFr_trace (s : State) (r : FaultRecord) : (s.setFr r).trace = s.trace := rfl
@[simp] theorem State.setFr_getV (s : State) (r : FaultRecord) (y : RegIdx) : (s.setFr r).getV y = s.getV y := rfl
@[simp] theorem State.setFr_readByte (s : State) (r : FaultRecord) (k : Nat) : (s.setFr r).readByte k = s.readByte k := rfl
@[simp] theorem State.setFr_slot (s : State) (r : FaultRecord) (k : Fin 16) : (s.setFr r).slot k = s.slot k := rfl
@[simp] theorem State.setFr_pixel (s : State) (r : FaultRecord) (r' c : Nat) : (s.setFr r).pixel r' c = s.pixel r' c := rfl

/-! ### `State.setFb` -/

@[simp] theorem State.setFb_config (s : State) (fb : Bitmap) : (s.setFb fb).config = s.config := rfl
@[simp] theorem State.setFb_v (s : State) (fb : Bitmap) : (s.setFb fb).v = s.v := rfl
@[simp] theorem State.setFb_i (s : State) (fb : Bitmap) : (s.setFb fb).i = s.i := rfl
@[simp] theorem State.setFb_pc (s : State) (fb : Bitmap) : (s.setFb fb).pc = s.pc := rfl
@[simp] theorem State.setFb_sp (s : State) (fb : Bitmap) : (s.setFb fb).sp = s.sp := rfl
@[simp] theorem State.setFb_stack (s : State) (fb : Bitmap) : (s.setFb fb).stack = s.stack := rfl
@[simp] theorem State.setFb_dt (s : State) (fb : Bitmap) : (s.setFb fb).dt = s.dt := rfl
@[simp] theorem State.setFb_st (s : State) (fb : Bitmap) : (s.setFb fb).st = s.st := rfl
@[simp] theorem State.setFb_input (s : State) (fb : Bitmap) : (s.setFb fb).input = s.input := rfl
@[simp] theorem State.setFb_mem (s : State) (fb : Bitmap) : (s.setFb fb).mem = s.mem := rfl
@[simp] theorem State.setFb_kw (s : State) (fb : Bitmap) : (s.setFb fb).kw = s.kw := rfl
@[simp] theorem State.setFb_fr (s : State) (fb : Bitmap) : (s.setFb fb).fr = s.fr := rfl
@[simp] theorem State.setFb_mode (s : State) (fb : Bitmap) : (s.setFb fb).mode = s.mode := rfl
@[simp] theorem State.setFb_fb (s : State) (fb : Bitmap) : (s.setFb fb).fb = fb := rfl
@[simp] theorem State.setFb_inputQueue (s : State) (fb : Bitmap) : (s.setFb fb).inputQueue = s.inputQueue := rfl
@[simp] theorem State.setFb_turns (s : State) (fb : Bitmap) : (s.setFb fb).turns = s.turns := rfl
@[simp] theorem State.setFb_events (s : State) (fb : Bitmap) : (s.setFb fb).events = s.events := rfl
@[simp] theorem State.setFb_draws (s : State) (fb : Bitmap) : (s.setFb fb).draws = s.draws := rfl
@[simp] theorem State.setFb_trace (s : State) (fb : Bitmap) : (s.setFb fb).trace = s.trace := rfl
@[simp] theorem State.setFb_getV (s : State) (fb : Bitmap) (y : RegIdx) : (s.setFb fb).getV y = s.getV y := rfl
@[simp] theorem State.setFb_readByte (s : State) (fb : Bitmap) (k : Nat) : (s.setFb fb).readByte k = s.readByte k := rfl
@[simp] theorem State.setFb_slot (s : State) (fb : Bitmap) (k : Fin 16) : (s.setFb fb).slot k = s.slot k := rfl

/-! ### `State.setMem` -/

@[simp] theorem State.setMem_config (s : State) (m : Memory) : (s.setMem m).config = s.config := rfl
@[simp] theorem State.setMem_v (s : State) (m : Memory) : (s.setMem m).v = s.v := rfl
@[simp] theorem State.setMem_i (s : State) (m : Memory) : (s.setMem m).i = s.i := rfl
@[simp] theorem State.setMem_pc (s : State) (m : Memory) : (s.setMem m).pc = s.pc := rfl
@[simp] theorem State.setMem_sp (s : State) (m : Memory) : (s.setMem m).sp = s.sp := rfl
@[simp] theorem State.setMem_stack (s : State) (m : Memory) : (s.setMem m).stack = s.stack := rfl
@[simp] theorem State.setMem_dt (s : State) (m : Memory) : (s.setMem m).dt = s.dt := rfl
@[simp] theorem State.setMem_st (s : State) (m : Memory) : (s.setMem m).st = s.st := rfl
@[simp] theorem State.setMem_input (s : State) (m : Memory) : (s.setMem m).input = s.input := rfl
@[simp] theorem State.setMem_mem (s : State) (m : Memory) : (s.setMem m).mem = m := rfl
@[simp] theorem State.setMem_kw (s : State) (m : Memory) : (s.setMem m).kw = s.kw := rfl
@[simp] theorem State.setMem_fr (s : State) (m : Memory) : (s.setMem m).fr = s.fr := rfl
@[simp] theorem State.setMem_mode (s : State) (m : Memory) : (s.setMem m).mode = s.mode := rfl
@[simp] theorem State.setMem_fb (s : State) (m : Memory) : (s.setMem m).fb = s.fb := rfl
@[simp] theorem State.setMem_inputQueue (s : State) (m : Memory) : (s.setMem m).inputQueue = s.inputQueue := rfl
@[simp] theorem State.setMem_turns (s : State) (m : Memory) : (s.setMem m).turns = s.turns := rfl
@[simp] theorem State.setMem_events (s : State) (m : Memory) : (s.setMem m).events = s.events := rfl
@[simp] theorem State.setMem_draws (s : State) (m : Memory) : (s.setMem m).draws = s.draws := rfl
@[simp] theorem State.setMem_trace (s : State) (m : Memory) : (s.setMem m).trace = s.trace := rfl
@[simp] theorem State.setMem_getV (s : State) (m : Memory) (y : RegIdx) : (s.setMem m).getV y = s.getV y := rfl
@[simp] theorem State.setMem_slot (s : State) (m : Memory) (k : Fin 16) : (s.setMem m).slot k = s.slot k := rfl
@[simp] theorem State.setMem_pixel (s : State) (m : Memory) (r c : Nat) : (s.setMem m).pixel r c = s.pixel r c := rfl

/-! ### `State.setInputQueue` -/

@[simp] theorem State.setInputQueue_config (s : State) (q : List (Option Key)) : (s.setInputQueue q).config = s.config := rfl
@[simp] theorem State.setInputQueue_v (s : State) (q : List (Option Key)) : (s.setInputQueue q).v = s.v := rfl
@[simp] theorem State.setInputQueue_i (s : State) (q : List (Option Key)) : (s.setInputQueue q).i = s.i := rfl
@[simp] theorem State.setInputQueue_pc (s : State) (q : List (Option Key)) : (s.setInputQueue q).pc = s.pc := rfl
@[simp] theorem State.setInputQueue_sp (s : State) (q : List (Option Key)) : (s.setInputQueue q).sp = s.sp := rfl
@[simp] theorem State.setInputQueue_stack (s : State) (q : List (Option Key)) : (s.setInputQueue q).stack = s.stack := rfl
@[simp] theorem State.setInputQueue_dt (s : State) (q : List (Option Key)) : (s.setInputQueue q).dt = s.dt := rfl
@[simp] theorem State.setInputQueue_st (s : State) (q : List (Option Key)) : (s.setInputQueue q).st = s.st := rfl
@[simp] theorem State.setInputQueue_input (s : State) (q : List (Option Key)) : (s.setInputQueue q).input = s.input := rfl
@[simp] theorem State.setInputQueue_mem (s : State) (q : List (Option Key)) : (s.setInputQueue q).mem = s.mem := rfl
@[simp] theorem State.setInputQueue_kw (s : State) (q : List (Option Key)) : (s.setInputQueue q).kw = s.kw := rfl
@[simp] theorem State.setInputQueue_fr (s : State) (q : List (Option Key)) : (s.setInputQueue q).fr = s.fr := rfl
@[simp] theorem State.setInputQueue_mode (s : State) (q : List (Option Key)) : (s.setInputQueue q).mode = s.mode := rfl
@[simp] theorem State.setInputQueue_fb (s : State) (q : List (Option Key)) : (s.setInputQueue q).fb = s.fb := rfl
@[simp] theorem State.setInputQueue_inputQueue (s : State) (q : List (Option Key)) : (s.setInputQueue q).inputQueue = q := rfl
@[simp] theorem State.setInputQueue_turns (s : State) (q : List (Option Key)) : (s.setInputQueue q).turns = s.turns := rfl
@[simp] theorem State.setInputQueue_events (s : State) (q : List (Option Key)) : (s.setInputQueue q).events = s.events := rfl
@[simp] theorem State.setInputQueue_draws (s : State) (q : List (Option Key)) : (s.setInputQueue q).draws = s.draws := rfl
@[simp] theorem State.setInputQueue_trace (s : State) (q : List (Option Key)) : (s.setInputQueue q).trace = s.trace := rfl
@[simp] theorem State.setInputQueue_getV (s : State) (q : List (Option Key)) (y : RegIdx) : (s.setInputQueue q).getV y = s.getV y := rfl
@[simp] theorem State.setInputQueue_readByte (s : State) (q : List (Option Key)) (k : Nat) : (s.setInputQueue q).readByte k = s.readByte k := rfl
@[simp] theorem State.setInputQueue_slot (s : State) (q : List (Option Key)) (k : Fin 16) : (s.setInputQueue q).slot k = s.slot k := rfl
@[simp] theorem State.setInputQueue_pixel (s : State) (q : List (Option Key)) (r c : Nat) : (s.setInputQueue q).pixel r c = s.pixel r c := rfl

/-! ### `State.setTurns` -/

@[simp] theorem State.setTurns_config (s : State) (ts : List Turn) : (s.setTurns ts).config = s.config := rfl
@[simp] theorem State.setTurns_v (s : State) (ts : List Turn) : (s.setTurns ts).v = s.v := rfl
@[simp] theorem State.setTurns_i (s : State) (ts : List Turn) : (s.setTurns ts).i = s.i := rfl
@[simp] theorem State.setTurns_pc (s : State) (ts : List Turn) : (s.setTurns ts).pc = s.pc := rfl
@[simp] theorem State.setTurns_sp (s : State) (ts : List Turn) : (s.setTurns ts).sp = s.sp := rfl
@[simp] theorem State.setTurns_stack (s : State) (ts : List Turn) : (s.setTurns ts).stack = s.stack := rfl
@[simp] theorem State.setTurns_dt (s : State) (ts : List Turn) : (s.setTurns ts).dt = s.dt := rfl
@[simp] theorem State.setTurns_st (s : State) (ts : List Turn) : (s.setTurns ts).st = s.st := rfl
@[simp] theorem State.setTurns_input (s : State) (ts : List Turn) : (s.setTurns ts).input = s.input := rfl
@[simp] theorem State.setTurns_mem (s : State) (ts : List Turn) : (s.setTurns ts).mem = s.mem := rfl
@[simp] theorem State.setTurns_kw (s : State) (ts : List Turn) : (s.setTurns ts).kw = s.kw := rfl
@[simp] theorem State.setTurns_fr (s : State) (ts : List Turn) : (s.setTurns ts).fr = s.fr := rfl
@[simp] theorem State.setTurns_mode (s : State) (ts : List Turn) : (s.setTurns ts).mode = s.mode := rfl
@[simp] theorem State.setTurns_fb (s : State) (ts : List Turn) : (s.setTurns ts).fb = s.fb := rfl
@[simp] theorem State.setTurns_inputQueue (s : State) (ts : List Turn) : (s.setTurns ts).inputQueue = s.inputQueue := rfl
@[simp] theorem State.setTurns_turns (s : State) (ts : List Turn) : (s.setTurns ts).turns = ts := rfl
@[simp] theorem State.setTurns_events (s : State) (ts : List Turn) : (s.setTurns ts).events = s.events := rfl
@[simp] theorem State.setTurns_draws (s : State) (ts : List Turn) : (s.setTurns ts).draws = s.draws := rfl
@[simp] theorem State.setTurns_trace (s : State) (ts : List Turn) : (s.setTurns ts).trace = s.trace := rfl
@[simp] theorem State.setTurns_getV (s : State) (ts : List Turn) (y : RegIdx) : (s.setTurns ts).getV y = s.getV y := rfl
@[simp] theorem State.setTurns_readByte (s : State) (ts : List Turn) (k : Nat) : (s.setTurns ts).readByte k = s.readByte k := rfl
@[simp] theorem State.setTurns_slot (s : State) (ts : List Turn) (k : Fin 16) : (s.setTurns ts).slot k = s.slot k := rfl
@[simp] theorem State.setTurns_pixel (s : State) (ts : List Turn) (r c : Nat) : (s.setTurns ts).pixel r c = s.pixel r c := rfl

/-! ### `State.setEvents` -/

@[simp] theorem State.setEvents_config (s : State) (n : Nat) : (s.setEvents n).config = s.config := rfl
@[simp] theorem State.setEvents_v (s : State) (n : Nat) : (s.setEvents n).v = s.v := rfl
@[simp] theorem State.setEvents_i (s : State) (n : Nat) : (s.setEvents n).i = s.i := rfl
@[simp] theorem State.setEvents_pc (s : State) (n : Nat) : (s.setEvents n).pc = s.pc := rfl
@[simp] theorem State.setEvents_sp (s : State) (n : Nat) : (s.setEvents n).sp = s.sp := rfl
@[simp] theorem State.setEvents_stack (s : State) (n : Nat) : (s.setEvents n).stack = s.stack := rfl
@[simp] theorem State.setEvents_dt (s : State) (n : Nat) : (s.setEvents n).dt = s.dt := rfl
@[simp] theorem State.setEvents_st (s : State) (n : Nat) : (s.setEvents n).st = s.st := rfl
@[simp] theorem State.setEvents_input (s : State) (n : Nat) : (s.setEvents n).input = s.input := rfl
@[simp] theorem State.setEvents_mem (s : State) (n : Nat) : (s.setEvents n).mem = s.mem := rfl
@[simp] theorem State.setEvents_kw (s : State) (n : Nat) : (s.setEvents n).kw = s.kw := rfl
@[simp] theorem State.setEvents_fr (s : State) (n : Nat) : (s.setEvents n).fr = s.fr := rfl
@[simp] theorem State.setEvents_mode (s : State) (n : Nat) : (s.setEvents n).mode = s.mode := rfl
@[simp] theorem State.setEvents_fb (s : State) (n : Nat) : (s.setEvents n).fb = s.fb := rfl
@[simp] theorem State.setEvents_inputQueue (s : State) (n : Nat) : (s.setEvents n).inputQueue = s.inputQueue := rfl
@[simp] theorem State.setEvents_turns (s : State) (n : Nat) : (s.setEvents n).turns = s.turns := rfl
@[simp] theorem State.setEvents_events (s : State) (n : Nat) : (s.setEvents n).events = n := rfl
@[simp] theorem State.setEvents_draws (s : State) (n : Nat) : (s.setEvents n).draws = s.draws := rfl
@[simp] theorem State.setEvents_trace (s : State) (n : Nat) : (s.setEvents n).trace = s.trace := rfl
@[simp] theorem State.setEvents_getV (s : State) (n : Nat) (y : RegIdx) : (s.setEvents n).getV y = s.getV y := rfl
@[simp] theorem State.setEvents_readByte (s : State) (n : Nat) (k : Nat) : (s.setEvents n).readByte k = s.readByte k := rfl
@[simp] theorem State.setEvents_slot (s : State) (n : Nat) (k : Fin 16) : (s.setEvents n).slot k = s.slot k := rfl
@[simp] theorem State.setEvents_pixel (s : State) (n : Nat) (r c : Nat) : (s.setEvents n).pixel r c = s.pixel r c := rfl

/-! ### `State.emit` -/

@[simp] theorem State.emit_config (s : State) (e : Output) : (s.emit e).config = s.config := rfl
@[simp] theorem State.emit_v (s : State) (e : Output) : (s.emit e).v = s.v := rfl
@[simp] theorem State.emit_i (s : State) (e : Output) : (s.emit e).i = s.i := rfl
@[simp] theorem State.emit_pc (s : State) (e : Output) : (s.emit e).pc = s.pc := rfl
@[simp] theorem State.emit_sp (s : State) (e : Output) : (s.emit e).sp = s.sp := rfl
@[simp] theorem State.emit_stack (s : State) (e : Output) : (s.emit e).stack = s.stack := rfl
@[simp] theorem State.emit_dt (s : State) (e : Output) : (s.emit e).dt = s.dt := rfl
@[simp] theorem State.emit_st (s : State) (e : Output) : (s.emit e).st = s.st := rfl
@[simp] theorem State.emit_input (s : State) (e : Output) : (s.emit e).input = s.input := rfl
@[simp] theorem State.emit_mem (s : State) (e : Output) : (s.emit e).mem = s.mem := rfl
@[simp] theorem State.emit_kw (s : State) (e : Output) : (s.emit e).kw = s.kw := rfl
@[simp] theorem State.emit_fr (s : State) (e : Output) : (s.emit e).fr = s.fr := rfl
@[simp] theorem State.emit_mode (s : State) (e : Output) : (s.emit e).mode = s.mode := rfl
@[simp] theorem State.emit_fb (s : State) (e : Output) : (s.emit e).fb = s.fb := rfl
@[simp] theorem State.emit_inputQueue (s : State) (e : Output) : (s.emit e).inputQueue = s.inputQueue := rfl
@[simp] theorem State.emit_turns (s : State) (e : Output) : (s.emit e).turns = s.turns := rfl
@[simp] theorem State.emit_events (s : State) (e : Output) : (s.emit e).events = s.events := rfl
@[simp] theorem State.emit_draws (s : State) (e : Output) : (s.emit e).draws = s.draws := rfl
@[simp] theorem State.emit_trace (s : State) (e : Output) : (s.emit e).trace = s.trace ++ [e] := rfl
@[simp] theorem State.emit_getV (s : State) (e : Output) (y : RegIdx) : (s.emit e).getV y = s.getV y := rfl
@[simp] theorem State.emit_readByte (s : State) (e : Output) (k : Nat) : (s.emit e).readByte k = s.readByte k := rfl
@[simp] theorem State.emit_slot (s : State) (e : Output) (k : Fin 16) : (s.emit e).slot k = s.slot k := rfl
@[simp] theorem State.emit_pixel (s : State) (e : Output) (r c : Nat) : (s.emit e).pixel r c = s.pixel r c := rfl

/-! ### `State.writeByte` -/

@[simp] theorem State.writeByte_config (s : State) (a : Nat) (b : Byte) : (s.writeByte a b).config = s.config := rfl
@[simp] theorem State.writeByte_v (s : State) (a : Nat) (b : Byte) : (s.writeByte a b).v = s.v := rfl
@[simp] theorem State.writeByte_i (s : State) (a : Nat) (b : Byte) : (s.writeByte a b).i = s.i := rfl
@[simp] theorem State.writeByte_pc (s : State) (a : Nat) (b : Byte) : (s.writeByte a b).pc = s.pc := rfl
@[simp] theorem State.writeByte_sp (s : State) (a : Nat) (b : Byte) : (s.writeByte a b).sp = s.sp := rfl
@[simp] theorem State.writeByte_stack (s : State) (a : Nat) (b : Byte) : (s.writeByte a b).stack = s.stack := rfl
@[simp] theorem State.writeByte_dt (s : State) (a : Nat) (b : Byte) : (s.writeByte a b).dt = s.dt := rfl
@[simp] theorem State.writeByte_st (s : State) (a : Nat) (b : Byte) : (s.writeByte a b).st = s.st := rfl
@[simp] theorem State.writeByte_input (s : State) (a : Nat) (b : Byte) : (s.writeByte a b).input = s.input := rfl
@[simp] theorem State.writeByte_mem (s : State) (a : Nat) (b : Byte) : (s.writeByte a b).mem = Memory.write s.config s.mem a b := rfl
@[simp] theorem State.writeByte_kw (s : State) (a : Nat) (b : Byte) : (s.writeByte a b).kw = s.kw := rfl
@[simp] theorem State.writeByte_fr (s : State) (a : Nat) (b : Byte) : (s.writeByte a b).fr = s.fr := rfl
@[simp] theorem State.writeByte_mode (s : State) (a : Nat) (b : Byte) : (s.writeByte a b).mode = s.mode := rfl
@[simp] theorem State.writeByte_fb (s : State) (a : Nat) (b : Byte) : (s.writeByte a b).fb = s.fb := rfl
@[simp] theorem State.writeByte_inputQueue (s : State) (a : Nat) (b : Byte) : (s.writeByte a b).inputQueue = s.inputQueue := rfl
@[simp] theorem State.writeByte_turns (s : State) (a : Nat) (b : Byte) : (s.writeByte a b).turns = s.turns := rfl
@[simp] theorem State.writeByte_events (s : State) (a : Nat) (b : Byte) : (s.writeByte a b).events = s.events := rfl
@[simp] theorem State.writeByte_draws (s : State) (a : Nat) (b : Byte) : (s.writeByte a b).draws = s.draws := rfl
@[simp] theorem State.writeByte_trace (s : State) (a : Nat) (b : Byte) : (s.writeByte a b).trace = s.trace := rfl
@[simp] theorem State.writeByte_getV (s : State) (a : Nat) (b : Byte) (y : RegIdx) : (s.writeByte a b).getV y = s.getV y := rfl
@[simp] theorem State.writeByte_slot (s : State) (a : Nat) (b : Byte) (k : Fin 16) : (s.writeByte a b).slot k = s.slot k := rfl
@[simp] theorem State.writeByte_pixel (s : State) (a : Nat) (b : Byte) (r c : Nat) : (s.writeByte a b).pixel r c = s.pixel r c := rfl

/-! ### `State.push` -/

@[simp] theorem State.push_config (s : State) (h : s.sp.val < 16) : (s.push h).config = s.config := rfl
@[simp] theorem State.push_v (s : State) (h : s.sp.val < 16) : (s.push h).v = s.v := rfl
@[simp] theorem State.push_i (s : State) (h : s.sp.val < 16) : (s.push h).i = s.i := rfl
@[simp] theorem State.push_pc (s : State) (h : s.sp.val < 16) : (s.push h).pc = s.pc := rfl
@[simp] theorem State.push_sp (s : State) (h : s.sp.val < 16) : (s.push h).sp = ⟨s.sp.val + 1, by omega⟩ := rfl
@[simp] theorem State.push_stack (s : State) (h : s.sp.val < 16) : (s.push h).stack = s.stack.set s.sp.val s.pc h := rfl
@[simp] theorem State.push_dt (s : State) (h : s.sp.val < 16) : (s.push h).dt = s.dt := rfl
@[simp] theorem State.push_st (s : State) (h : s.sp.val < 16) : (s.push h).st = s.st := rfl
@[simp] theorem State.push_input (s : State) (h : s.sp.val < 16) : (s.push h).input = s.input := rfl
@[simp] theorem State.push_mem (s : State) (h : s.sp.val < 16) : (s.push h).mem = s.mem := rfl
@[simp] theorem State.push_kw (s : State) (h : s.sp.val < 16) : (s.push h).kw = s.kw := rfl
@[simp] theorem State.push_fr (s : State) (h : s.sp.val < 16) : (s.push h).fr = s.fr := rfl
@[simp] theorem State.push_mode (s : State) (h : s.sp.val < 16) : (s.push h).mode = s.mode := rfl
@[simp] theorem State.push_fb (s : State) (h : s.sp.val < 16) : (s.push h).fb = s.fb := rfl
@[simp] theorem State.push_inputQueue (s : State) (h : s.sp.val < 16) : (s.push h).inputQueue = s.inputQueue := rfl
@[simp] theorem State.push_turns (s : State) (h : s.sp.val < 16) : (s.push h).turns = s.turns := rfl
@[simp] theorem State.push_events (s : State) (h : s.sp.val < 16) : (s.push h).events = s.events := rfl
@[simp] theorem State.push_draws (s : State) (h : s.sp.val < 16) : (s.push h).draws = s.draws := rfl
@[simp] theorem State.push_trace (s : State) (h : s.sp.val < 16) : (s.push h).trace = s.trace := rfl
@[simp] theorem State.push_getV (s : State) (h : s.sp.val < 16) (y : RegIdx) : (s.push h).getV y = s.getV y := rfl
@[simp] theorem State.push_readByte (s : State) (h : s.sp.val < 16) (k : Nat) : (s.push h).readByte k = s.readByte k := rfl
@[simp] theorem State.push_pixel (s : State) (h : s.sp.val < 16) (r c : Nat) : (s.push h).pixel r c = s.pixel r c := rfl

/-! ### `State.pop` -/

@[simp] theorem State.pop_config (s : State) (h : 0 < s.sp.val) : (s.pop h).config = s.config := rfl
@[simp] theorem State.pop_v (s : State) (h : 0 < s.sp.val) : (s.pop h).v = s.v := rfl
@[simp] theorem State.pop_i (s : State) (h : 0 < s.sp.val) : (s.pop h).i = s.i := rfl
@[simp] theorem State.pop_pc (s : State) (h : 0 < s.sp.val) : (s.pop h).pc = s.stack[s.sp.val - 1]'(by omega) := rfl
@[simp] theorem State.pop_sp (s : State) (h : 0 < s.sp.val) : (s.pop h).sp = ⟨s.sp.val - 1, by omega⟩ := rfl
@[simp] theorem State.pop_stack (s : State) (h : 0 < s.sp.val) : (s.pop h).stack = s.stack := rfl
@[simp] theorem State.pop_dt (s : State) (h : 0 < s.sp.val) : (s.pop h).dt = s.dt := rfl
@[simp] theorem State.pop_st (s : State) (h : 0 < s.sp.val) : (s.pop h).st = s.st := rfl
@[simp] theorem State.pop_input (s : State) (h : 0 < s.sp.val) : (s.pop h).input = s.input := rfl
@[simp] theorem State.pop_mem (s : State) (h : 0 < s.sp.val) : (s.pop h).mem = s.mem := rfl
@[simp] theorem State.pop_kw (s : State) (h : 0 < s.sp.val) : (s.pop h).kw = s.kw := rfl
@[simp] theorem State.pop_fr (s : State) (h : 0 < s.sp.val) : (s.pop h).fr = s.fr := rfl
@[simp] theorem State.pop_mode (s : State) (h : 0 < s.sp.val) : (s.pop h).mode = s.mode := rfl
@[simp] theorem State.pop_fb (s : State) (h : 0 < s.sp.val) : (s.pop h).fb = s.fb := rfl
@[simp] theorem State.pop_inputQueue (s : State) (h : 0 < s.sp.val) : (s.pop h).inputQueue = s.inputQueue := rfl
@[simp] theorem State.pop_turns (s : State) (h : 0 < s.sp.val) : (s.pop h).turns = s.turns := rfl
@[simp] theorem State.pop_events (s : State) (h : 0 < s.sp.val) : (s.pop h).events = s.events := rfl
@[simp] theorem State.pop_draws (s : State) (h : 0 < s.sp.val) : (s.pop h).draws = s.draws := rfl
@[simp] theorem State.pop_trace (s : State) (h : 0 < s.sp.val) : (s.pop h).trace = s.trace := rfl
@[simp] theorem State.pop_getV (s : State) (h : 0 < s.sp.val) (y : RegIdx) : (s.pop h).getV y = s.getV y := rfl
@[simp] theorem State.pop_readByte (s : State) (h : 0 < s.sp.val) (k : Nat) : (s.pop h).readByte k = s.readByte k := rfl
@[simp] theorem State.pop_slot (s : State) (h : 0 < s.sp.val) (k : Fin 16) : (s.pop h).slot k = s.slot k := rfl
@[simp] theorem State.pop_pixel (s : State) (h : 0 < s.sp.val) (r c : Nat) : (s.pop h).pixel r c = s.pixel r c := rfl

/-! ### `State.consumeDraw` -/

@[simp] theorem State.consumeDraw_config (s : State) : s.consumeDraw.config = s.config := rfl
@[simp] theorem State.consumeDraw_v (s : State) : s.consumeDraw.v = s.v := rfl
@[simp] theorem State.consumeDraw_i (s : State) : s.consumeDraw.i = s.i := rfl
@[simp] theorem State.consumeDraw_pc (s : State) : s.consumeDraw.pc = s.pc := rfl
@[simp] theorem State.consumeDraw_sp (s : State) : s.consumeDraw.sp = s.sp := rfl
@[simp] theorem State.consumeDraw_stack (s : State) : s.consumeDraw.stack = s.stack := rfl
@[simp] theorem State.consumeDraw_dt (s : State) : s.consumeDraw.dt = s.dt := rfl
@[simp] theorem State.consumeDraw_st (s : State) : s.consumeDraw.st = s.st := rfl
@[simp] theorem State.consumeDraw_input (s : State) : s.consumeDraw.input = s.input := rfl
@[simp] theorem State.consumeDraw_mem (s : State) : s.consumeDraw.mem = s.mem := rfl
@[simp] theorem State.consumeDraw_kw (s : State) : s.consumeDraw.kw = s.kw := rfl
@[simp] theorem State.consumeDraw_fr (s : State) : s.consumeDraw.fr = s.fr := rfl
@[simp] theorem State.consumeDraw_mode (s : State) : s.consumeDraw.mode = s.mode := rfl
@[simp] theorem State.consumeDraw_fb (s : State) : s.consumeDraw.fb = s.fb := rfl
@[simp] theorem State.consumeDraw_inputQueue (s : State) : s.consumeDraw.inputQueue = s.inputQueue := rfl
@[simp] theorem State.consumeDraw_turns (s : State) : s.consumeDraw.turns = s.turns := rfl
@[simp] theorem State.consumeDraw_events (s : State) : s.consumeDraw.events = s.events := rfl
@[simp] theorem State.consumeDraw_draws (s : State) : s.consumeDraw.draws = s.draws + 1 := rfl
@[simp] theorem State.consumeDraw_trace (s : State) : s.consumeDraw.trace = s.trace := rfl
@[simp] theorem State.consumeDraw_getV (s : State) (y : RegIdx) : s.consumeDraw.getV y = s.getV y := rfl
@[simp] theorem State.consumeDraw_readByte (s : State) (k : Nat) : s.consumeDraw.readByte k = s.readByte k := rfl
@[simp] theorem State.consumeDraw_slot (s : State) (k : Fin 16) : s.consumeDraw.slot k = s.slot k := rfl
@[simp] theorem State.consumeDraw_pixel (s : State) (r c : Nat) : s.consumeDraw.pixel r c = s.pixel r c := rfl

/-! ### `State.advance` -/

@[simp] theorem State.advance_config (s : State) : s.advance.config = s.config := rfl
@[simp] theorem State.advance_v (s : State) : s.advance.v = s.v := rfl
@[simp] theorem State.advance_i (s : State) : s.advance.i = s.i := rfl
@[simp] theorem State.advance_pc (s : State) : s.advance.pc = s.pc + 2#16 := rfl
@[simp] theorem State.advance_sp (s : State) : s.advance.sp = s.sp := rfl
@[simp] theorem State.advance_stack (s : State) : s.advance.stack = s.stack := rfl
@[simp] theorem State.advance_dt (s : State) : s.advance.dt = s.dt := rfl
@[simp] theorem State.advance_st (s : State) : s.advance.st = s.st := rfl
@[simp] theorem State.advance_input (s : State) : s.advance.input = s.input := rfl
@[simp] theorem State.advance_mem (s : State) : s.advance.mem = s.mem := rfl
@[simp] theorem State.advance_kw (s : State) : s.advance.kw = s.kw := rfl
@[simp] theorem State.advance_fr (s : State) : s.advance.fr = s.fr := rfl
@[simp] theorem State.advance_mode (s : State) : s.advance.mode = s.mode := rfl
@[simp] theorem State.advance_fb (s : State) : s.advance.fb = s.fb := rfl
@[simp] theorem State.advance_inputQueue (s : State) : s.advance.inputQueue = s.inputQueue := rfl
@[simp] theorem State.advance_turns (s : State) : s.advance.turns = s.turns := rfl
@[simp] theorem State.advance_events (s : State) : s.advance.events = s.events := rfl
@[simp] theorem State.advance_draws (s : State) : s.advance.draws = s.draws := rfl
@[simp] theorem State.advance_trace (s : State) : s.advance.trace = s.trace := rfl
@[simp] theorem State.advance_getV (s : State) (y : RegIdx) : s.advance.getV y = s.getV y := rfl
@[simp] theorem State.advance_readByte (s : State) (k : Nat) : s.advance.readByte k = s.readByte k := rfl
@[simp] theorem State.advance_slot (s : State) (k : Fin 16) : s.advance.slot k = s.slot k := rfl
@[simp] theorem State.advance_pixel (s : State) (r c : Nat) : s.advance.pixel r c = s.pixel r c := rfl

/-! ### `State.decrementTimers` -/

@[simp] theorem State.decrementTimers_config (s : State) : s.decrementTimers.config = s.config := rfl
@[simp] theorem State.decrementTimers_v (s : State) : s.decrementTimers.v = s.v := rfl
@[simp] theorem State.decrementTimers_i (s : State) : s.decrementTimers.i = s.i := rfl
@[simp] theorem State.decrementTimers_pc (s : State) : s.decrementTimers.pc = s.pc := rfl
@[simp] theorem State.decrementTimers_sp (s : State) : s.decrementTimers.sp = s.sp := rfl
@[simp] theorem State.decrementTimers_stack (s : State) : s.decrementTimers.stack = s.stack := rfl
@[simp] theorem State.decrementTimers_dt (s : State) : s.decrementTimers.dt = tick s.dt := rfl
@[simp] theorem State.decrementTimers_st (s : State) : s.decrementTimers.st = tick s.st := rfl
@[simp] theorem State.decrementTimers_input (s : State) : s.decrementTimers.input = s.input := rfl
@[simp] theorem State.decrementTimers_mem (s : State) : s.decrementTimers.mem = s.mem := rfl
@[simp] theorem State.decrementTimers_kw (s : State) : s.decrementTimers.kw = s.kw := rfl
@[simp] theorem State.decrementTimers_fr (s : State) : s.decrementTimers.fr = s.fr := rfl
@[simp] theorem State.decrementTimers_mode (s : State) : s.decrementTimers.mode = s.mode := rfl
@[simp] theorem State.decrementTimers_fb (s : State) : s.decrementTimers.fb = s.fb := rfl
@[simp] theorem State.decrementTimers_inputQueue (s : State) : s.decrementTimers.inputQueue = s.inputQueue := rfl
@[simp] theorem State.decrementTimers_turns (s : State) : s.decrementTimers.turns = s.turns := rfl
@[simp] theorem State.decrementTimers_events (s : State) : s.decrementTimers.events = s.events := rfl
@[simp] theorem State.decrementTimers_draws (s : State) : s.decrementTimers.draws = s.draws := rfl
@[simp] theorem State.decrementTimers_trace (s : State) : s.decrementTimers.trace = s.trace := rfl
@[simp] theorem State.decrementTimers_getV (s : State) (y : RegIdx) : s.decrementTimers.getV y = s.getV y := rfl
@[simp] theorem State.decrementTimers_readByte (s : State) (k : Nat) : s.decrementTimers.readByte k = s.readByte k := rfl
@[simp] theorem State.decrementTimers_slot (s : State) (k : Fin 16) : s.decrementTimers.slot k = s.slot k := rfl
@[simp] theorem State.decrementTimers_pixel (s : State) (r c : Nat) : s.decrementTimers.pixel r c = s.pixel r c := rfl

end Sys2Proof.Machine
end

