-- ==== Sys2Proof/Laws/Ops.lean ====
section
/-! SUPPORT. What the shared operations do, once each: registers, bytes, runs of bytes, ranges of registers, the timers, the two ways
a dispatch ends. -/

namespace Sys2Proof.Machine

/-! ### Registers -/

@[simp] theorem State.getV_setV_same (s : State) (x : RegIdx) (b : Byte) : (s.setV x b).getV x = b := by
  simp [State.getV, State.setV]

theorem State.getV_setV_ne (s : State) {x y : RegIdx} (b : Byte) (h : y ≠ x) : (s.setV x b).getV y = s.getV y := by
  have : x.toNat ≠ y.toNat := fun e => h (BitVec.eq_of_toNat_eq e.symm)
  simp [State.getV, State.setV, this]

theorem State.getV_setV (s : State) (x y : RegIdx) (b : Byte) :
    (s.setV x b).getV y = if y = x then b else s.getV y := by
  split
  · next h => rw [h, State.getV_setV_same]
  · next h => exact State.getV_setV_ne s b h

@[simp] theorem State.getV_setFlag_same (s : State) (flag : Bool) :
    (s.setFlag flag).getV 0xF#4 = if flag then 0x01#8 else 0x00#8 := State.getV_setV_same ..

theorem State.getV_setFlag_ne (s : State) (flag : Bool) {y : RegIdx} (h : y ≠ 0xF#4) :
    (s.setFlag flag).getV y = s.getV y := State.getV_setV_ne _ _ h

theorem State.getV_setFlag (s : State) (flag : Bool) (y : RegIdx) :
    (s.setFlag flag).getV y = if y = 0xF#4 then (if flag then 0x01#8 else 0x00#8) else s.getV y :=
  State.getV_setV ..

/-! ### Bytes -/

theorem State.readByte_writeByte (s : State) (a k : Nat) (b : Byte) :
    (s.writeByte a b).readByte k = if k = a then b else s.readByte k := Memory.read_write ..

theorem State.readByte_setMem (s : State) (m : Memory) (k : Nat) : (s.setMem m).readByte k = Memory.read s.config m k := rfl

/-! ### Runs of bytes -/

@[simp] theorem State.writeBytes_config (bs : List Byte) (s : State) (a : Nat) : (s.writeBytes a bs).config = s.config := by
  induction bs generalizing s a with
  | nil => rfl
  | cons b bs ih => exact ih ..

@[simp] theorem State.writeBytes_v (bs : List Byte) (s : State) (a : Nat) : (s.writeBytes a bs).v = s.v := by
  induction bs generalizing s a with
  | nil => rfl
  | cons b bs ih => exact ih ..

@[simp] theorem State.writeBytes_i (bs : List Byte) (s : State) (a : Nat) : (s.writeBytes a bs).i = s.i := by
  induction bs generalizing s a with
  | nil => rfl
  | cons b bs ih => exact ih ..

@[simp] theorem State.writeBytes_pc (bs : List Byte) (s : State) (a : Nat) : (s.writeBytes a bs).pc = s.pc := by
  induction bs generalizing s a with
  | nil => rfl
  | cons b bs ih => exact ih ..

@[simp] theorem State.writeBytes_sp (bs : List Byte) (s : State) (a : Nat) : (s.writeBytes a bs).sp = s.sp := by
  induction bs generalizing s a with
  | nil => rfl
  | cons b bs ih => exact ih ..

@[simp] theorem State.writeBytes_stack (bs : List Byte) (s : State) (a : Nat) : (s.writeBytes a bs).stack = s.stack := by
  induction bs generalizing s a with
  | nil => rfl
  | cons b bs ih => exact ih ..

@[simp] theorem State.writeBytes_dt (bs : List Byte) (s : State) (a : Nat) : (s.writeBytes a bs).dt = s.dt := by
  induction bs generalizing s a with
  | nil => rfl
  | cons b bs ih => exact ih ..

@[simp] theorem State.writeBytes_st (bs : List Byte) (s : State) (a : Nat) : (s.writeBytes a bs).st = s.st := by
  induction bs generalizing s a with
  | nil => rfl
  | cons b bs ih => exact ih ..

@[simp] theorem State.writeBytes_input (bs : List Byte) (s : State) (a : Nat) : (s.writeBytes a bs).input = s.input := by
  induction bs generalizing s a with
  | nil => rfl
  | cons b bs ih => exact ih ..

@[simp] theorem State.writeBytes_kw (bs : List Byte) (s : State) (a : Nat) : (s.writeBytes a bs).kw = s.kw := by
  induction bs generalizing s a with
  | nil => rfl
  | cons b bs ih => exact ih ..

@[simp] theorem State.writeBytes_fr (bs : List Byte) (s : State) (a : Nat) : (s.writeBytes a bs).fr = s.fr := by
  induction bs generalizing s a with
  | nil => rfl
  | cons b bs ih => exact ih ..

@[simp] theorem State.writeBytes_mode (bs : List Byte) (s : State) (a : Nat) : (s.writeBytes a bs).mode = s.mode := by
  induction bs generalizing s a with
  | nil => rfl
  | cons b bs ih => exact ih ..

@[simp] theorem State.writeBytes_fb (bs : List Byte) (s : State) (a : Nat) : (s.writeBytes a bs).fb = s.fb := by
  induction bs generalizing s a with
  | nil => rfl
  | cons b bs ih => exact ih ..

@[simp] theorem State.writeBytes_inputQueue (bs : List Byte) (s : State) (a : Nat) : (s.writeBytes a bs).inputQueue = s.inputQueue := by
  induction bs generalizing s a with
  | nil => rfl
  | cons b bs ih => exact ih ..

@[simp] theorem State.writeBytes_turns (bs : List Byte) (s : State) (a : Nat) : (s.writeBytes a bs).turns = s.turns := by
  induction bs generalizing s a with
  | nil => rfl
  | cons b bs ih => exact ih ..

@[simp] theorem State.writeBytes_events (bs : List Byte) (s : State) (a : Nat) : (s.writeBytes a bs).events = s.events := by
  induction bs generalizing s a with
  | nil => rfl
  | cons b bs ih => exact ih ..

@[simp] theorem State.writeBytes_draws (bs : List Byte) (s : State) (a : Nat) : (s.writeBytes a bs).draws = s.draws := by
  induction bs generalizing s a with
  | nil => rfl
  | cons b bs ih => exact ih ..

@[simp] theorem State.writeBytes_trace (bs : List Byte) (s : State) (a : Nat) : (s.writeBytes a bs).trace = s.trace := by
  induction bs generalizing s a with
  | nil => rfl
  | cons b bs ih => exact ih ..

@[simp] theorem State.writeBytes_getV (bs : List Byte) (s : State) (a : Nat) (y : RegIdx) :
    (s.writeBytes a bs).getV y = s.getV y := by
  induction bs generalizing s a with
  | nil => rfl
  | cons b bs ih => exact ih ..

@[simp] theorem State.writeBytes_slot (bs : List Byte) (s : State) (a : Nat) (k : Fin 16) :
    (s.writeBytes a bs).slot k = s.slot k := by
  induction bs generalizing s a with
  | nil => rfl
  | cons b bs ih => exact ih ..

@[simp] theorem State.writeBytes_pixel (bs : List Byte) (s : State) (a : Nat) (r c : Nat) :
    (s.writeBytes a bs).pixel r c = s.pixel r c := by
  induction bs generalizing s a with
  | nil => rfl
  | cons b bs ih => exact ih ..

/-- What a run of stores leaves at every address. -/
theorem State.readByte_writeBytes (bs : List Byte) (s : State) (a k : Nat) :
    (s.writeBytes a bs).readByte k = if h : a ≤ k ∧ k < a + bs.length then bs[k - a] else s.readByte k := by
  induction bs generalizing s a with
  | nil => simp only [State.writeBytes, List.length_nil]; rw [dif_neg (by omega)]
  | cons b bs ih =>
    rw [State.writeBytes, ih, State.readByte_writeByte]
    by_cases hk : k = a
    · subst hk
      simp
    · by_cases hin : a + 1 ≤ k ∧ k < a + 1 + bs.length
      · have hsub : k - a = (k - (a + 1)) + 1 := by omega
        rw [dif_pos hin, dif_pos (by simp only [List.length_cons]; omega)]
        simp [hsub]
      · rw [dif_neg hin, if_neg hk, dif_neg (by simp only [List.length_cons]; omega)]

/-- A run of stores inside the address space keeps the canonical form. -/
theorem State.wf_writeBytes (bs : List Byte) {s : State} {a : Nat} (ha : a + bs.length ≤ memorySize)
    (h : Memory.wf s.config s.mem) : Memory.wf s.config (s.writeBytes a bs).mem := by
  induction bs generalizing s a with
  | nil => exact h
  | cons b bs ih =>
    simp only [List.length_cons] at ha
    exact ih (s := s.writeByte a b) (a := a + 1) (by omega) (Memory.wf_write b (by omega) h)

/-- Memory after reset is in canonical form. -/
theorem wf_reset_memory : Memory.wf State.reset.config State.reset.mem := Memory.wf_nil _

@[simp] theorem State.readBytes_length (n : Nat) (s : State) (a : Nat) : (s.readBytes a n).length = n := by
  induction n generalizing a with
  | zero => rfl
  | succ n ih => simp [State.readBytes, ih]

@[simp] theorem State.readBytes_getElem (n : Nat) (s : State) (a k : Nat) (h : k < (s.readBytes a n).length) :
    (s.readBytes a n)[k] = s.readByte (a + k) := by
  induction n generalizing a k with
  | zero => simp [State.readBytes] at h
  | succ n ih =>
    cases k with
    | zero => simp [State.readBytes]
    | succ k => simp [State.readBytes, ih, Nat.add_assoc, Nat.add_comm 1 k]

/-! ### Ranges of registers -/

@[simp] theorem State.registersFrom_length (n : Nat) (s : State) (k : Nat) : (s.registersFrom k n).length = n := by
  induction n generalizing k with
  | zero => rfl
  | succ n ih => simp [State.registersFrom, ih]

@[simp] theorem State.registersFrom_getElem (n : Nat) (s : State) (k j : Nat) (h : j < (s.registersFrom k n).length) :
    (s.registersFrom k n)[j] = s.getV (BitVec.ofNat 4 (k + j)) := by
  induction n generalizing k j with
  | zero => simp [State.registersFrom] at h
  | succ n ih =>
    cases j with
    | zero => simp [State.registersFrom]
    | succ j => simp [State.registersFrom, ih, Nat.add_assoc, Nat.add_comm 1 j]

@[simp] theorem State.loadRegisters_config (bs : List Byte) (s : State) (k : Nat) : (s.loadRegisters k bs).config = s.config := by
  induction bs generalizing s k with
  | nil => rfl
  | cons b bs ih => exact ih ..

@[simp] theorem State.loadRegisters_i (bs : List Byte) (s : State) (k : Nat) : (s.loadRegisters k bs).i = s.i := by
  induction bs generalizing s k with
  | nil => rfl
  | cons b bs ih => exact ih ..

@[simp] theorem State.loadRegisters_pc (bs : List Byte) (s : State) (k : Nat) : (s.loadRegisters k bs).pc = s.pc := by
  induction bs generalizing s k with
  | nil => rfl
  | cons b bs ih => exact ih ..

@[simp] theorem State.loadRegisters_sp (bs : List Byte) (s : State) (k : Nat) : (s.loadRegisters k bs).sp = s.sp := by
  induction bs generalizing s k with
  | nil => rfl
  | cons b bs ih => exact ih ..

@[simp] theorem State.loadRegisters_stack (bs : List Byte) (s : State) (k : Nat) : (s.loadRegisters k bs).stack = s.stack := by
  induction bs generalizing s k with
  | nil => rfl
  | cons b bs ih => exact ih ..

@[simp] theorem State.loadRegisters_dt (bs : List Byte) (s : State) (k : Nat) : (s.loadRegisters k bs).dt = s.dt := by
  induction bs generalizing s k with
  | nil => rfl
  | cons b bs ih => exact ih ..

@[simp] theorem State.loadRegisters_st (bs : List Byte) (s : State) (k : Nat) : (s.loadRegisters k bs).st = s.st := by
  induction bs generalizing s k with
  | nil => rfl
  | cons b bs ih => exact ih ..

@[simp] theorem State.loadRegisters_input (bs : List Byte) (s : State) (k : Nat) : (s.loadRegisters k bs).input = s.input := by
  induction bs generalizing s k with
  | nil => rfl
  | cons b bs ih => exact ih ..

@[simp] theorem State.loadRegisters_mem (bs : List Byte) (s : State) (k : Nat) : (s.loadRegisters k bs).mem = s.mem := by
  induction bs generalizing s k with
  | nil => rfl
  | cons b bs ih => exact ih ..

@[simp] theorem State.loadRegisters_kw (bs : List Byte) (s : State) (k : Nat) : (s.loadRegisters k bs).kw = s.kw := by
  induction bs generalizing s k with
  | nil => rfl
  | cons b bs ih => exact ih ..

@[simp] theorem State.loadRegisters_fr (bs : List Byte) (s : State) (k : Nat) : (s.loadRegisters k bs).fr = s.fr := by
  induction bs generalizing s k with
  | nil => rfl
  | cons b bs ih => exact ih ..

@[simp] theorem State.loadRegisters_mode (bs : List Byte) (s : State) (k : Nat) : (s.loadRegisters k bs).mode = s.mode := by
  induction bs generalizing s k with
  | nil => rfl
  | cons b bs ih => exact ih ..

@[simp] theorem State.loadRegisters_fb (bs : List Byte) (s : State) (k : Nat) : (s.loadRegisters k bs).fb = s.fb := by
  induction bs generalizing s k with
  | nil => rfl
  | cons b bs ih => exact ih ..

@[simp] theorem State.loadRegisters_inputQueue (bs : List Byte) (s : State) (k : Nat) : (s.loadRegisters k bs).inputQueue = s.inputQueue := by
  induction bs generalizing s k with
  | nil => rfl
  | cons b bs ih => exact ih ..

@[simp] theorem State.loadRegisters_turns (bs : List Byte) (s : State) (k : Nat) : (s.loadRegisters k bs).turns = s.turns := by
  induction bs generalizing s k with
  | nil => rfl
  | cons b bs ih => exact ih ..

@[simp] theorem State.loadRegisters_events (bs : List Byte) (s : State) (k : Nat) : (s.loadRegisters k bs).events = s.events := by
  induction bs generalizing s k with
  | nil => rfl
  | cons b bs ih => exact ih ..

@[simp] theorem State.loadRegisters_draws (bs : List Byte) (s : State) (k : Nat) : (s.loadRegisters k bs).draws = s.draws := by
  induction bs generalizing s k with
  | nil => rfl
  | cons b bs ih => exact ih ..

@[simp] theorem State.loadRegisters_trace (bs : List Byte) (s : State) (k : Nat) : (s.loadRegisters k bs).trace = s.trace := by
  induction bs generalizing s k with
  | nil => rfl
  | cons b bs ih => exact ih ..

@[simp] theorem State.loadRegisters_readByte (bs : List Byte) (s : State) (k : Nat) (a : Nat) :
    (s.loadRegisters k bs).readByte a = s.readByte a := by
  induction bs generalizing s k with
  | nil => rfl
  | cons b bs ih => exact ih ..

@[simp] theorem State.loadRegisters_slot (bs : List Byte) (s : State) (k : Nat) (j : Fin 16) :
    (s.loadRegisters k bs).slot j = s.slot j := by
  induction bs generalizing s k with
  | nil => rfl
  | cons b bs ih => exact ih ..

@[simp] theorem State.loadRegisters_pixel (bs : List Byte) (s : State) (k : Nat) (r c : Nat) :
    (s.loadRegisters k bs).pixel r c = s.pixel r c := by
  induction bs generalizing s k with
  | nil => rfl
  | cons b bs ih => exact ih ..

/-- What a run of loads leaves in every register. -/
theorem State.getV_loadRegisters (bs : List Byte) (s : State) (k : Nat) (hk : k + bs.length ≤ 16) (y : RegIdx) :
    (s.loadRegisters k bs).getV y =
      if h : k ≤ y.toNat ∧ y.toNat < k + bs.length then bs[y.toNat - k] else s.getV y := by
  induction bs generalizing s k with
  | nil => simp only [State.loadRegisters, List.length_nil]; rw [dif_neg (by omega)]
  | cons b bs ih =>
    simp only [List.length_cons] at hk
    rw [State.loadRegisters, ih _ _ (by omega), State.getV_setV]
    have hy : y = BitVec.ofNat 4 k ↔ y.toNat = k := by
      rw [← BitVec.toNat_inj, BitVec.toNat_ofNat, Nat.mod_eq_of_lt (by omega)]
    by_cases he : y.toNat = k
    · rw [dif_neg (by omega), if_pos (hy.2 he), dif_pos (by simp only [List.length_cons]; omega)]
      simp [he]
    · by_cases hin : k + 1 ≤ y.toNat ∧ y.toNat < k + 1 + bs.length
      · have hsub : y.toNat - k = (y.toNat - (k + 1)) + 1 := by omega
        rw [dif_pos hin, dif_pos (by simp only [List.length_cons]; omega)]
        simp [hsub]
      · rw [dif_neg hin, if_neg (fun e => he (hy.1 e)), dif_neg (by simp only [List.length_cons]; omega)]

/-! ### What runs of bytes and ranges of registers depend on -/

theorem State.readBytes_congr {s t : State} (hc : t.config = s.config) (hm : t.mem = s.mem) (a n : Nat) :
    t.readBytes a n = s.readBytes a n := by
  apply List.ext_getElem
  · simp
  · intro k _ _
    simp [State.readByte, hc, hm]

theorem State.registersFrom_congr {s t : State} (hv : t.v = s.v) (k n : Nat) :
    t.registersFrom k n = s.registersFrom k n := by
  apply List.ext_getElem
  · simp
  · intro j _ _
    simp [State.getV, hv]

theorem State.writeBytes_setSt (bs : List Byte) (s : State) (a : Nat) (b : Byte) :
    (s.setSt b).writeBytes a bs = (s.writeBytes a bs).setSt b := by
  induction bs generalizing s a with
  | nil => rfl
  | cons c bs ih => exact ih (s.writeByte a c) (a + 1)

theorem State.writeBytes_setInput (bs : List Byte) (s : State) (a : Nat) (report : Option Key) :
    (s.setInput report).writeBytes a bs = (s.writeBytes a bs).setInput report := by
  induction bs generalizing s a with
  | nil => rfl
  | cons c bs ih => exact ih (s.writeByte a c) (a + 1)

theorem State.loadRegisters_setSt (bs : List Byte) (s : State) (k : Nat) (b : Byte) :
    (s.setSt b).loadRegisters k bs = (s.loadRegisters k bs).setSt b := by
  induction bs generalizing s k with
  | nil => rfl
  | cons c bs ih => exact ih (s.setV (BitVec.ofNat 4 k) c) (k + 1)

theorem State.loadRegisters_setInput (bs : List Byte) (s : State) (k : Nat) (report : Option Key) :
    (s.setInput report).loadRegisters k bs = (s.loadRegisters k bs).setInput report := by
  induction bs generalizing s k with
  | nil => rfl
  | cons c bs ih => exact ih (s.setV (BitVec.ofNat 4 k) c) (k + 1)

/-! ### Timers and the ends of a dispatch -/

/-- R85: one tick is a subtraction floored at zero. -/
theorem tick_toNat (t : Byte) : (tick t).toNat = t.toNat - 1 := by
  unfold tick
  split
  · next h => simp [h]
  · next h =>
    have : t.toNat ≠ 0 := fun e => h (BitVec.eq_of_toNat_eq e)
    have := t.isLt
    simp only [BitVec.toNat_sub, BitVec.toNat_ofNat]
    omega

@[simp] theorem retire_eq (s : State) : retire s = .next s.decrementTimers := rfl

@[simp] theorem raise_eq (cause : Cause) (pc : Word) (word : Option Word) (s : State) :
    raise cause pc word s = .next ((s.setFr ⟨cause, pc, word⟩).setMode .faulted) := rfl

@[simp] theorem raiseIn_eq (cause : Cause) (ins : Instr) (s : State) :
    raiseIn cause ins s = .next ((s.advance.setFr ⟨cause, s.pc, some (encode ins)⟩).setMode .faulted) := rfl

/-- R100: a skip is a load of `PC` and nothing else, whether it is taken or not. -/
@[simp] theorem State.skipIf_eq (s : State) (taken : Bool) :
    s.skipIf taken = s.setPc (if taken then s.pc + 2#16 else s.pc) := by
  cases taken <;> rfl

/-- R46: when a range faults, in the integers. -/
theorem rangeFaults_iff (s : State) (len : Nat) : rangeFaults s len = true ↔ 1 ≤ len ∧ s.i.toNat + len - 1 > 0xFFF := by
  unfold rangeFaults elementAddress
  rw [Bool.and_eq_true, decide_eq_true_iff, decide_eq_true_iff]
  omega

end Sys2Proof.Machine
end

