-- ==== Sys2Proof/Laws/Exec.lean ====
section
/-! SUPPORT. What executing an instruction and serving a turn can do, said once: the two ways an instruction ends, and the cases of a
scheduler step. Later proofs cite these instead of unfolding the step. -/

namespace Sys2Proof.Machine

/-! ### The range check against the spec's conditions -/

theorem rangeFaults_bcd (s : State) : rangeFaults s bcdLength = true ↔ s.i.toNat + 2 > 0xFFF := by
  rw [rangeFaults_iff, bcdLength]
  omega

theorem rangeFaults_registers (s : State) (x : RegIdx) :
    rangeFaults s (registerCount x) = true ↔ s.i.toNat + x.toNat > 0xFFF := by
  rw [rangeFaults_iff, registerCount]
  omega

/-! ### Executing an instruction -/

/-- An instruction whose fault condition holds takes the fault: of the step only the advance has taken effect. -/
theorem exec_of_faultCause {i : Instr} {s : State} {cause : Cause} (h : faultCause i s = some cause) :
    exec i s = .next ((s.advance.setFr ⟨cause, s.pc, some (encode i)⟩).setMode .faulted) := by
  cases i <;> simp only [faultCause] at h <;> try contradiction
  case ret =>
    split at h
    · next hs => obtain rfl := Option.some.inj h; simp [exec, execRet, hs]
    · contradiction
  case call nnn =>
    split at h
    · next hs => obtain rfl := Option.some.inj h; simp [exec, execCall, hs]
    · contradiction
  case drw x y n =>
    split at h
    · next hs => obtain rfl := Option.some.inj h; simp [exec, execDrw, (rangeFaults_iff s n.toNat).2 hs, firstBadAddress]
    · contradiction
  case bcd x =>
    split at h
    · next hs => obtain rfl := Option.some.inj h; simp [exec, execBcd, (rangeFaults_bcd s).2 hs, firstBadAddress]
    · contradiction
  case stm x =>
    split at h
    · next hs => obtain rfl := Option.some.inj h; simp [exec, execStm, (rangeFaults_registers s x).2 hs, firstBadAddress]
    · contradiction
  case ldm x =>
    split at h
    · next hs => obtain rfl := Option.some.inj h; simp [exec, execLdm, (rangeFaults_registers s x).2 hs, firstBadAddress]
    · contradiction

theorem exec_ret_pops {s : State} (h : s.sp.val ≠ 0) :
    exec .ret s = .next (s.advance.pop (Nat.pos_of_ne_zero h)).decrementTimers := by
  simp [exec, execRet, h]

theorem exec_call_pushes {nnn : Addr} {s : State} (h : s.sp.val ≠ 16) :
    exec (.call nnn) s = .next ((s.advance.push (Nat.lt_of_le_of_ne (Nat.le_of_lt_succ s.sp.isLt) h)).setPc
      (absoluteTarget nnn)).decrementTimers := by
  simp [exec, execCall, h]

theorem exec_drw_draws {x y : RegIdx} {n : Nibble} {s : State} (h : ¬ (1 ≤ n.toNat ∧ s.i.toNat + n.toNat - 1 > 0xFFF)) :
    exec (.drw x y n) s =
      .next (((s.advance.emit (.drawSprite (s.readBytes (elementAddress s 0) n.toNat) (s.getV x) (s.getV y))).setFb
        (drawSprite s.config s.fb (s.readBytes (elementAddress s 0) n.toNat) (s.getV x) (s.getV y)).1).setFlag
        (drawSprite s.config s.fb (s.readBytes (elementAddress s 0) n.toNat) (s.getV x) (s.getV y)).2).decrementTimers := by
  simp [exec, execDrw, mt (rangeFaults_iff s n.toNat).1 h]

theorem exec_bcd_stores {x : RegIdx} {s : State} (h : ¬ s.i.toNat + 2 > 0xFFF) :
    exec (.bcd x) s = .next (s.advance.writeBytes (elementAddress s 0) (bcdDigits (s.getV x))).decrementTimers := by
  simp [exec, execBcd, mt (rangeFaults_bcd s).1 h]

theorem exec_stm_stores {x : RegIdx} {s : State} (h : ¬ s.i.toNat + x.toNat > 0xFFF) :
    exec (.stm x) s =
      .next (s.advance.writeBytes (elementAddress s 0) (s.registersFrom 0 (registerCount x))).decrementTimers := by
  simp [exec, execStm, mt (rangeFaults_registers s x).1 h]

theorem exec_ldm_loads {x : RegIdx} {s : State} (h : ¬ s.i.toNat + x.toNat > 0xFFF) :
    exec (.ldm x) s =
      .next (s.advance.loadRegisters 0 (s.readBytes (elementAddress s 0) (registerCount x))).decrementTimers := by
  simp [exec, execLdm, mt (rangeFaults_registers s x).1 h]

/-- What no completed dispatch changes, and what it leaves in the timers before their decrement. -/
structure Dispatched (i : Instr) (s u : State) : Prop where
  config : u.config = s.config
  mode : u.mode = s.mode
  fr : u.fr = s.fr
  input : u.input = s.input
  inputQueue : u.inputQueue = s.inputQueue
  turns : u.turns = s.turns
  events : u.events = s.events
  dt : u.dt = delayBeforeTick i s
  st : u.st = soundBeforeTick i s

theorem Dispatched.skipIf (s : State) (i : Instr) (taken : Bool) (hd : delayBeforeTick i s = s.dt)
    (hs : soundBeforeTick i s = s.st) : Dispatched i s (s.advance.skipIf taken) := by
  cases taken <;> constructor <;> simp [hd, hs]

/-- An instruction whose fault condition does not hold completes: a dispatched state, then the timer decrement. -/
theorem exec_of_no_faultCause {i : Instr} {s : State} (h : faultCause i s = none) :
    ∃ u, exec i s = .next u.decrementTimers ∧ Dispatched i s u := by
  cases i
  case ret =>
    have hs : s.sp.val ≠ 0 := by simpa [faultCause] using h
    exact ⟨_, exec_ret_pops hs, by constructor <;> rfl⟩
  case call nnn =>
    have hs : s.sp.val ≠ 16 := by simpa [faultCause] using h
    exact ⟨_, exec_call_pushes hs, by constructor <;> rfl⟩
  case drw x y n =>
    have hs : ¬ (1 ≤ n.toNat ∧ s.i.toNat + n.toNat - 1 > 0xFFF) := by
      intro hs; simp [faultCause, hs] at h
    exact ⟨_, exec_drw_draws hs, by constructor <;> rfl⟩
  case bcd x =>
    have hs : ¬ s.i.toNat + 2 > 0xFFF := by intro hs; simp [faultCause, hs] at h
    exact ⟨_, exec_bcd_stores hs, by constructor <;> rfl⟩
  case stm x =>
    have hs : ¬ s.i.toNat + x.toNat > 0xFFF := by intro hs; simp [faultCause, hs] at h
    exact ⟨_, exec_stm_stores hs, by constructor <;> simp [delayBeforeTick, soundBeforeTick]⟩
  case ldm x =>
    have hs : ¬ s.i.toNat + x.toNat > 0xFFF := by intro hs; simp [faultCause, hs] at h
    exact ⟨_, exec_ldm_loads hs, by constructor <;> simp [delayBeforeTick, soundBeforeTick]⟩
  all_goals first
    | exact ⟨_, rfl, Dispatched.skipIf s _ _ rfl rfl⟩
    | exact ⟨_, rfl, by constructor <;> rfl⟩

/-- Every instruction has a next state. -/
theorem exec_next (i : Instr) (s : State) : ∃ t, exec i s = .next t := by
  cases h : faultCause i s with
  | some cause => exact ⟨_, exec_of_faultCause h⟩
  | none => obtain ⟨u, hu, -⟩ := exec_of_no_faultCause h; exact ⟨_, hu⟩

/-! ### The core of a state -/

theorem State.writeBytes_core (bs : List Byte) (s : State) (a : Nat) : s.core.writeBytes a bs = (s.writeBytes a bs).core := by
  induction bs generalizing s a with
  | nil => rfl
  | cons b bs ih => exact ih (s.writeByte a b) (a + 1)

theorem State.loadRegisters_core (bs : List Byte) (s : State) (k : Nat) :
    s.core.loadRegisters k bs = (s.loadRegisters k bs).core := by
  induction bs generalizing s k with
  | nil => rfl
  | cons b bs ih => exact ih (s.setV (BitVec.ofNat 4 k) b) (k + 1)

/-! ### A step of the scheduler -/

@[simp] theorem State.dropTurn_eq (s : State) :
    s.dropTurn = (s.setTurns s.turns.tail).setEvents (if s.turns.isEmpty then s.events + 1 else s.events) := rfl

/-- R164: where no turn is settled, the environment and the arbiter answer. -/
theorem nextTurn_free {s : State} (h : s.turns = []) : s.nextTurn = Config.environmentTurn s.events := by
  simp [State.nextTurn, h]

theorem nextTurn_of_head {s : State} {turn : Turn} (h : s.turns.head? = some turn) : s.nextTurn = some turn := by
  unfold State.nextTurn
  cases ht : s.turns with
  | nil => simp [ht] at h
  | cons t rest => simpa [ht] using h

theorem nextTurn_cons {s : State} {turn : Turn} {rest : List Turn} (h : s.turns = turn :: rest) :
    s.nextTurn = some turn := by
  simp [State.nextTurn, h]

theorem step_stopped {s : State} (h : s.mode = .stopped) : step s = .fault .stopped := by
  simp [step, schedulerStep, h]

theorem step_faulted {s : State} (h : s.mode = .faulted) : step s = .fault .faulted := by
  simp [step, schedulerStep, h]

theorem step_rest {s : State} (hm : s.mode.terminal = false) (ht : s.nextTurn = none) :
    step s = .next s.dropTurn := by
  cases h : s.mode <;> simp [Mode.terminal, h] at hm <;> simp [step, schedulerStep, h, ht]

theorem step_serve {s : State} {turn : Turn} (hm : s.mode.terminal = false) (ht : s.nextTurn = some turn) :
    step s = serve turn s.dropTurn := by
  cases h : s.mode <;> simp [Mode.terminal, h] at hm <;> simp [step, schedulerStep, h, ht]

/-- A served instruction whose fetch is inside memory: the step is the execution of the word at the program counter. -/
theorem step_exec {s : State} (hs : ServesInstruction s) (hp : s.pc.toNat ≤ 0xFFE) :
    step s = exec (resolve s.fetchedWord) s.dropTurn := by
  obtain ⟨hm, hk, ht⟩ := hs
  have hk' : s.dropTurn.kw = none := hk
  have hp' : ¬ s.dropTurn.pc.toNat > 0xFFE := Nat.not_lt.2 hp
  have hw : s.dropTurn.fetchedWord = s.fetchedWord := rfl
  rw [step_serve hm ht, serve, hk', handleInstr, if_neg hp', hw]
  rfl

/-- A served instruction whose fetch passes the end of memory takes the fetch fault. -/
theorem step_fetchOutOfRange {s : State} (hs : ServesInstruction s) (hp : s.pc.toNat > 0xFFE) :
    step s = .next ((s.dropTurn.setFr ⟨.fetchOutOfRange, s.pc, none⟩).setMode .faulted) := by
  obtain ⟨hm, hk, ht⟩ := hs
  have hk' : s.dropTurn.kw = none := hk
  have hp' : s.dropTurn.pc.toNat > 0xFFE := hp
  rw [step_serve hm ht, serve, hk', handleInstr, if_pos hp']
  rfl

/-- Serving a turn always has a next state. -/
theorem serve_next (turn : Turn) (s : State) : ∃ t, serve turn s = .next t := by
  cases turn with
  | instrReady =>
    unfold serve handleInstr
    by_cases hk : s.kw.isSome = true
    · exact ⟨s, by simp [hk]⟩
    · by_cases hp : s.pc.toNat > 0xFFE
      · exact ⟨_, by simp [hk, hp]; rfl⟩
      · obtain ⟨t, ht⟩ := exec_next (resolve s.fetchedWord) s
        exact ⟨t, by simp [hk, hp, ht]⟩
  | inputReady =>
    cases hq : s.inputQueue with
    | nil => exact ⟨s, by simp [serve, hq]⟩
    | cons report rest => exact ⟨_, by simp [serve, hq]; rfl⟩
  | frameReady => exact ⟨_, rfl⟩
  | quitReady => exact ⟨_, rfl⟩
  | keyReport _ => exact ⟨_, rfl⟩

/-- A state made ready to fetch serves an instruction next, and its fetch is inside memory. -/
theorem readyToFetch_serves (s : State) : ServesInstruction s.readyToFetch ∧ s.readyToFetch.pc.toNat ≤ 0xFFE := by
  have hr : (restingMode s.config).terminal = false := by unfold restingMode; split <;> rfl
  unfold State.readyToFetch ServesInstruction
  by_cases hm : s.mode.terminal = true <;> by_cases hp : s.pc.toNat > 0xFFE <;>
    simp only [hm, hp, if_true, if_false, State.setKw_pc, State.setMode_pc, Bool.false_eq_true] <;> split <;> rename_i ht <;>
    first
    | (refine ⟨⟨?_, rfl, nextTurn_of_head ht⟩, ?_⟩ <;> simp [hr, hm, entryPoint] <;> omega)
    | (refine ⟨⟨?_, rfl, rfl⟩, ?_⟩ <;> simp [hr, hm, entryPoint] <;> omega)

theorem readyToFetch_memory (s : State) : s.readyToFetch.config = s.config ∧ s.readyToFetch.mem = s.mem := by
  unfold State.readyToFetch
  by_cases hm : s.mode.terminal = true <;> by_cases hp : s.pc.toNat > 0xFFE <;>
    simp only [hm, hp, if_true, if_false, State.setKw_pc, State.setMode_pc, Bool.false_eq_true] <;> split <;>
    exact ⟨rfl, rfl⟩

/-- Placing an instruction keeps memory in canonical form. -/
theorem wf_withFetchWord {s : State} (nbits w : Nat) (h : Memory.wf s.config s.mem) :
    Memory.wf (s.withFetchWord nbits w).config (s.withFetchWord nbits w).mem := by
  obtain ⟨hc, hm⟩ := readyToFetch_memory s
  have hp := (readyToFetch_serves s).2
  unfold State.withFetchWord State.placeWord
  rw [State.writeBytes_config]
  refine State.wf_writeBytes _ ?_ (by rw [hc, hm]; exact h)
  simp only [List.length_cons, List.length_nil, memorySize]
  omega

/-- The cases of a step that has a next state. -/
theorem step_cases {s t : State} (h : step s = .next t) :
    s.mode.terminal = false ∧
      ((s.nextTurn = none ∧ t = s.dropTurn) ∨ ∃ turn, s.nextTurn = some turn ∧ serve turn s.dropTurn = .next t) := by
  have hm : s.mode.terminal = false := by
    cases hs : s.mode with
    | stopped => simp [step_stopped hs] at h
    | faulted => simp [step_faulted hs] at h
    | running => rfl
    | awaitingManualStep => rfl
  refine ⟨hm, ?_⟩
  cases ht : s.nextTurn with
  | none =>
    rw [step_rest hm ht] at h
    exact .inl ⟨rfl, (Host.Outcome.next.inj h).symm⟩
  | some turn => exact .inr ⟨turn, rfl, by rw [← step_serve hm ht, h]⟩

/-- A run over a step that has a next state. -/
theorem run_step {s t : State} (k : Nat) (h : step s = .next t) :
    Host.Core.run core (k + 1) s = Host.Core.run core k t := by
  have h' : core.step s = .next t := h
  simp only [Host.Core.run, h']

/-- A run of no step. -/
theorem run_none (s : State) : Host.Core.run core 0 s = .next s := rfl

/-- What serving a turn can do. -/
theorem serve_cases {turn : Turn} {s t : State} (h : serve turn s = .next t) :
    (turn = .instrReady ∧ s.kw.isSome = true ∧ t = s)
      ∨ (turn = .instrReady ∧ s.kw = none ∧ s.pc.toNat > 0xFFE
          ∧ t = (s.setFr ⟨.fetchOutOfRange, s.pc, none⟩).setMode .faulted)
      ∨ (turn = .instrReady ∧ s.kw = none ∧ s.pc.toNat ≤ 0xFFE ∧ exec (resolve s.fetchedWord) s = .next t)
      ∨ (turn = .frameReady ∧ t = handleFrame s)
      ∨ (turn = .inputReady ∧ s.inputQueue = [] ∧ t = s)
      ∨ (∃ report rest, turn = .inputReady ∧ s.inputQueue = report :: rest
          ∧ t = handleInput report (s.setInputQueue rest))
      ∨ (turn = .quitReady ∧ t = handleQuit s)
      ∨ (∃ report, turn = .keyReport report ∧ t = s.setInputQueue (s.inputQueue ++ [report])) := by
  cases turn with
  | instrReady =>
    unfold serve at h
    cases hk : s.kw with
    | some x => simp [hk] at h; simp [h]
    | none =>
      simp only [hk, Option.isSome_none, Bool.false_eq_true, if_false, handleInstr] at h
      by_cases hp : s.pc.toNat > 0xFFE
      · simp only [hp, if_true, raise_eq, Host.Outcome.next.injEq] at h
        exact .inr (.inl ⟨rfl, rfl, hp, h.symm⟩)
      · simp only [hp, if_false] at h
        exact .inr (.inr (.inl ⟨rfl, rfl, by omega, h⟩))
  | frameReady => simp [serve] at h; simp [h]
  | quitReady => simp [serve] at h; simp [h]
  | keyReport report => simp [serve] at h; simp [h]
  | inputReady =>
    cases hq : s.inputQueue with
    | nil => simp [serve, hq] at h; simp [h]
    | cons report rest => simp [serve, hq] at h; simp [h]

end Sys2Proof.Machine
end

