-- ==== Sys2Proof/Laws/PerInstr.lean ====
section
/-! SUPPORT. The lemmas made per instruction: the word `encode` gives an instruction has the fixed bits of the opcode-table row of its
own mnemonic (30_encoding.md R66). -/

namespace Sys2Proof

/-! ### The fixed bits of an assembled word -/

theorem wordA_family (f : Nibble) (nnn : Addr) : wordA f nnn &&& 0xF000#16 = f.zeroExtend 16 <<< 12 := by
  apply BitVec.eq_of_getLsbD_eq
  intro k hk
  interval_cases k <;> simp [wordA]

theorem wordXK_family (f : Nibble) (x : RegIdx) (kk : Byte) : wordXK f x kk &&& 0xF000#16 = f.zeroExtend 16 <<< 12 := by
  apply BitVec.eq_of_getLsbD_eq
  intro k hk
  interval_cases k <;> simp [wordXK]

theorem wordXK_subByte (f : Nibble) (x : RegIdx) (kk : Byte) :
    wordXK f x kk &&& 0xF0FF#16 = f.zeroExtend 16 <<< 12 ||| kk.zeroExtend 16 := by
  apply BitVec.eq_of_getLsbD_eq
  intro k hk
  interval_cases k <;> simp [wordXK]

theorem wordXYN_family (f : Nibble) (x y : RegIdx) (n : Nibble) :
    wordXYN f x y n &&& 0xF000#16 = f.zeroExtend 16 <<< 12 := by
  apply BitVec.eq_of_getLsbD_eq
  intro k hk
  interval_cases k <;> simp [wordXYN]

theorem wordXYN_subNibble (f : Nibble) (x y : RegIdx) (n : Nibble) :
    wordXYN f x y n &&& 0xF00F#16 = f.zeroExtend 16 <<< 12 ||| n.zeroExtend 16 := by
  apply BitVec.eq_of_getLsbD_eq
  intro k hk
  interval_cases k <;> simp [wordXYN]

/-- The word of `i` has the fixed bits of the row of `i`'s mnemonic. -/
def Laws.EncodeMatchesRow.Statement (i : Instr) : Prop :=
  ∃ r ∈ opcodeTable, r.mnemonic = i.mnemonic ∧ r.fits (encode i) = true

/-- A row of the table whose fixed bits the word has proves the statement. -/
theorem Laws.EncodeMatchesRow.of_row {i : Instr} (r : OpcodeRow) (hr : r ∈ opcodeTable) (hm : r.mnemonic = i.mnemonic)
    (hw : encode i &&& r.mask = r.pattern) : Laws.EncodeMatchesRow.Statement i :=
  ⟨r, hr, hm, by rw [OpcodeRow.fits, hw, beq_self_eq_true]⟩

theorem Laws.EncodeMatchesRow.cls : Laws.EncodeMatchesRow.Statement .cls :=
  Laws.EncodeMatchesRow.of_row ⟨"CLS", 0xFFFF#16, 0x00E0#16⟩ (by decide) rfl (by decide)

theorem Laws.EncodeMatchesRow.ret : Laws.EncodeMatchesRow.Statement .ret :=
  Laws.EncodeMatchesRow.of_row ⟨"RET", 0xFFFF#16, 0x00EE#16⟩ (by decide) rfl (by decide)

theorem Laws.EncodeMatchesRow.sys (nnn : Addr) : Laws.EncodeMatchesRow.Statement (.sys nnn) :=
  Laws.EncodeMatchesRow.of_row ⟨"SYS", 0xF000#16, 0x0000#16⟩ (by decide) rfl (wordA_family 0x0#4 nnn)

theorem Laws.EncodeMatchesRow.jp (nnn : Addr) : Laws.EncodeMatchesRow.Statement (.jp nnn) :=
  Laws.EncodeMatchesRow.of_row ⟨"JP", 0xF000#16, 0x1000#16⟩ (by decide) rfl (wordA_family 0x1#4 nnn)

theorem Laws.EncodeMatchesRow.call (nnn : Addr) : Laws.EncodeMatchesRow.Statement (.call nnn) :=
  Laws.EncodeMatchesRow.of_row ⟨"CALL", 0xF000#16, 0x2000#16⟩ (by decide) rfl (wordA_family 0x2#4 nnn)

theorem Laws.EncodeMatchesRow.seImm (x : RegIdx) (kk : Byte) : Laws.EncodeMatchesRow.Statement (.seImm x kk) :=
  Laws.EncodeMatchesRow.of_row ⟨"SE_IMM", 0xF000#16, 0x3000#16⟩ (by decide) rfl (wordXK_family 0x3#4 x kk)

theorem Laws.EncodeMatchesRow.sneImm (x : RegIdx) (kk : Byte) : Laws.EncodeMatchesRow.Statement (.sneImm x kk) :=
  Laws.EncodeMatchesRow.of_row ⟨"SNE_IMM", 0xF000#16, 0x4000#16⟩ (by decide) rfl (wordXK_family 0x4#4 x kk)

theorem Laws.EncodeMatchesRow.seReg (x : RegIdx) (y : RegIdx) (n : Nibble) : Laws.EncodeMatchesRow.Statement (.seReg x y n) :=
  Laws.EncodeMatchesRow.of_row ⟨"SE_REG", 0xF000#16, 0x5000#16⟩ (by decide) rfl (wordXYN_family 0x5#4 x y n)

theorem Laws.EncodeMatchesRow.ldImm (x : RegIdx) (kk : Byte) : Laws.EncodeMatchesRow.Statement (.ldImm x kk) :=
  Laws.EncodeMatchesRow.of_row ⟨"LD_IMM", 0xF000#16, 0x6000#16⟩ (by decide) rfl (wordXK_family 0x6#4 x kk)

theorem Laws.EncodeMatchesRow.addImm (x : RegIdx) (kk : Byte) : Laws.EncodeMatchesRow.Statement (.addImm x kk) :=
  Laws.EncodeMatchesRow.of_row ⟨"ADD_IMM", 0xF000#16, 0x7000#16⟩ (by decide) rfl (wordXK_family 0x7#4 x kk)

theorem Laws.EncodeMatchesRow.ldReg (x : RegIdx) (y : RegIdx) : Laws.EncodeMatchesRow.Statement (.ldReg x y) :=
  Laws.EncodeMatchesRow.of_row ⟨"LD_REG", 0xF00F#16, 0x8000#16⟩ (by decide) rfl (wordXYN_subNibble 0x8#4 x y 0x0#4)

theorem Laws.EncodeMatchesRow.orReg (x : RegIdx) (y : RegIdx) : Laws.EncodeMatchesRow.Statement (.orReg x y) :=
  Laws.EncodeMatchesRow.of_row ⟨"OR", 0xF00F#16, 0x8001#16⟩ (by decide) rfl (wordXYN_subNibble 0x8#4 x y 0x1#4)

theorem Laws.EncodeMatchesRow.andReg (x : RegIdx) (y : RegIdx) : Laws.EncodeMatchesRow.Statement (.andReg x y) :=
  Laws.EncodeMatchesRow.of_row ⟨"AND", 0xF00F#16, 0x8002#16⟩ (by decide) rfl (wordXYN_subNibble 0x8#4 x y 0x2#4)

theorem Laws.EncodeMatchesRow.xorReg (x : RegIdx) (y : RegIdx) : Laws.EncodeMatchesRow.Statement (.xorReg x y) :=
  Laws.EncodeMatchesRow.of_row ⟨"XOR", 0xF00F#16, 0x8003#16⟩ (by decide) rfl (wordXYN_subNibble 0x8#4 x y 0x3#4)

theorem Laws.EncodeMatchesRow.addReg (x : RegIdx) (y : RegIdx) : Laws.EncodeMatchesRow.Statement (.addReg x y) :=
  Laws.EncodeMatchesRow.of_row ⟨"ADD_REG", 0xF00F#16, 0x8004#16⟩ (by decide) rfl (wordXYN_subNibble 0x8#4 x y 0x4#4)

theorem Laws.EncodeMatchesRow.sub (x : RegIdx) (y : RegIdx) : Laws.EncodeMatchesRow.Statement (.sub x y) :=
  Laws.EncodeMatchesRow.of_row ⟨"SUB", 0xF00F#16, 0x8005#16⟩ (by decide) rfl (wordXYN_subNibble 0x8#4 x y 0x5#4)

theorem Laws.EncodeMatchesRow.shr (x : RegIdx) (n : Nibble) : Laws.EncodeMatchesRow.Statement (.shr x n) :=
  Laws.EncodeMatchesRow.of_row ⟨"SHR", 0xF00F#16, 0x8006#16⟩ (by decide) rfl (wordXYN_subNibble 0x8#4 x n 0x6#4)

theorem Laws.EncodeMatchesRow.subr (x : RegIdx) (y : RegIdx) : Laws.EncodeMatchesRow.Statement (.subr x y) :=
  Laws.EncodeMatchesRow.of_row ⟨"SUBR", 0xF00F#16, 0x8007#16⟩ (by decide) rfl (wordXYN_subNibble 0x8#4 x y 0x7#4)

theorem Laws.EncodeMatchesRow.shl (x : RegIdx) (n : Nibble) : Laws.EncodeMatchesRow.Statement (.shl x n) :=
  Laws.EncodeMatchesRow.of_row ⟨"SHL", 0xF00F#16, 0x800E#16⟩ (by decide) rfl (wordXYN_subNibble 0x8#4 x n 0xE#4)

theorem Laws.EncodeMatchesRow.sneReg (x : RegIdx) (y : RegIdx) (n : Nibble) : Laws.EncodeMatchesRow.Statement (.sneReg x y n) :=
  Laws.EncodeMatchesRow.of_row ⟨"SNE_REG", 0xF000#16, 0x9000#16⟩ (by decide) rfl (wordXYN_family 0x9#4 x y n)

theorem Laws.EncodeMatchesRow.ldI (nnn : Addr) : Laws.EncodeMatchesRow.Statement (.ldI nnn) :=
  Laws.EncodeMatchesRow.of_row ⟨"LD_I", 0xF000#16, 0xA000#16⟩ (by decide) rfl (wordA_family 0xA#4 nnn)

theorem Laws.EncodeMatchesRow.jpV0 (nnn : Addr) : Laws.EncodeMatchesRow.Statement (.jpV0 nnn) :=
  Laws.EncodeMatchesRow.of_row ⟨"JP_V0", 0xF000#16, 0xB000#16⟩ (by decide) rfl (wordA_family 0xB#4 nnn)

theorem Laws.EncodeMatchesRow.rnd (x : RegIdx) (kk : Byte) : Laws.EncodeMatchesRow.Statement (.rnd x kk) :=
  Laws.EncodeMatchesRow.of_row ⟨"RND", 0xF000#16, 0xC000#16⟩ (by decide) rfl (wordXK_family 0xC#4 x kk)

theorem Laws.EncodeMatchesRow.drw (x : RegIdx) (y : RegIdx) (n : Nibble) : Laws.EncodeMatchesRow.Statement (.drw x y n) :=
  Laws.EncodeMatchesRow.of_row ⟨"DRW", 0xF000#16, 0xD000#16⟩ (by decide) rfl (wordXYN_family 0xD#4 x y n)

theorem Laws.EncodeMatchesRow.skp (x : RegIdx) : Laws.EncodeMatchesRow.Statement (.skp x) :=
  Laws.EncodeMatchesRow.of_row ⟨"SKP", 0xF0FF#16, 0xE09E#16⟩ (by decide) rfl (wordXK_subByte 0xE#4 x 0x9E#8)

theorem Laws.EncodeMatchesRow.sknp (x : RegIdx) : Laws.EncodeMatchesRow.Statement (.sknp x) :=
  Laws.EncodeMatchesRow.of_row ⟨"SKNP", 0xF0FF#16, 0xE0A1#16⟩ (by decide) rfl (wordXK_subByte 0xE#4 x 0xA1#8)

theorem Laws.EncodeMatchesRow.ldVxDt (x : RegIdx) : Laws.EncodeMatchesRow.Statement (.ldVxDt x) :=
  Laws.EncodeMatchesRow.of_row ⟨"LD_VX_DT", 0xF0FF#16, 0xF007#16⟩ (by decide) rfl (wordXK_subByte 0xF#4 x 0x07#8)

theorem Laws.EncodeMatchesRow.ldVxK (x : RegIdx) : Laws.EncodeMatchesRow.Statement (.ldVxK x) :=
  Laws.EncodeMatchesRow.of_row ⟨"LD_VX_K", 0xF0FF#16, 0xF00A#16⟩ (by decide) rfl (wordXK_subByte 0xF#4 x 0x0A#8)

theorem Laws.EncodeMatchesRow.ldDtVx (x : RegIdx) : Laws.EncodeMatchesRow.Statement (.ldDtVx x) :=
  Laws.EncodeMatchesRow.of_row ⟨"LD_DT_VX", 0xF0FF#16, 0xF015#16⟩ (by decide) rfl (wordXK_subByte 0xF#4 x 0x15#8)

theorem Laws.EncodeMatchesRow.ldStVx (x : RegIdx) : Laws.EncodeMatchesRow.Statement (.ldStVx x) :=
  Laws.EncodeMatchesRow.of_row ⟨"LD_ST_VX", 0xF0FF#16, 0xF018#16⟩ (by decide) rfl (wordXK_subByte 0xF#4 x 0x18#8)

theorem Laws.EncodeMatchesRow.addI (x : RegIdx) : Laws.EncodeMatchesRow.Statement (.addI x) :=
  Laws.EncodeMatchesRow.of_row ⟨"ADD_I", 0xF0FF#16, 0xF01E#16⟩ (by decide) rfl (wordXK_subByte 0xF#4 x 0x1E#8)

theorem Laws.EncodeMatchesRow.ldF (x : RegIdx) : Laws.EncodeMatchesRow.Statement (.ldF x) :=
  Laws.EncodeMatchesRow.of_row ⟨"LD_F", 0xF0FF#16, 0xF029#16⟩ (by decide) rfl (wordXK_subByte 0xF#4 x 0x29#8)

theorem Laws.EncodeMatchesRow.bcd (x : RegIdx) : Laws.EncodeMatchesRow.Statement (.bcd x) :=
  Laws.EncodeMatchesRow.of_row ⟨"BCD", 0xF0FF#16, 0xF033#16⟩ (by decide) rfl (wordXK_subByte 0xF#4 x 0x33#8)

theorem Laws.EncodeMatchesRow.stm (x : RegIdx) : Laws.EncodeMatchesRow.Statement (.stm x) :=
  Laws.EncodeMatchesRow.of_row ⟨"STM", 0xF0FF#16, 0xF055#16⟩ (by decide) rfl (wordXK_subByte 0xF#4 x 0x55#8)

theorem Laws.EncodeMatchesRow.ldm (x : RegIdx) : Laws.EncodeMatchesRow.Statement (.ldm x) :=
  Laws.EncodeMatchesRow.of_row ⟨"LDM", 0xF0FF#16, 0xF065#16⟩ (by decide) rfl (wordXK_subByte 0xF#4 x 0x65#8)

theorem Laws.EncodeMatchesRow.unrecognized (word : Word) : Laws.EncodeMatchesRow.Statement (.unrecognized word) :=
  Laws.EncodeMatchesRow.of_row ⟨"UNRECOGNIZED", 0x0000#16, 0x0000#16⟩ (by decide) rfl BitVec.and_zero

end Sys2Proof
end

