-- ==== Sys2Proof/Tests/Slice0.lean ====
section
/-! SUPPORT. The model's own tests: ill-formed terms refused, words written out from the encodings of 30_encoding.md decoded, one small
step per instruction with results from 95_test_vectors.md, and for every statement with hypotheses a state that meets them. -/

namespace Sys2Proof.Tests

open Sys2Proof Sys2Proof.Machine

/-- What `f` reads from the next state, if there is one. -/
def look {α : Type} (o : Host.Outcome State Fault Refusal) (f : State → α) : Option α :=
  match o with
  | .next t => some (f t)
  | .fault _ => none
  | .refused _ => none

/-- The reset state with some registers set. -/
def regs (values : List (RegIdx × Byte)) : State := values.foldl (fun s p => s.setV p.1 p.2) State.reset

/-- One step of the machine on a word placed at the program counter. -/
def ran (w : Nat) (s : State) : Host.Outcome State Fault Refusal := step (s.withFetchWord 16 w)

/-- The reset state with `n` occupied stack slots. -/
def depth (n : Fin 17) : State := { State.reset with sp := n }

/-- The reset state in debug mode, at rest. -/
def debugReset : State :=
  { State.reset with config := { defaultConfig with debugMode := true }, mode := .awaitingManualStep }

/-! ### Well-formedness -/

theorem test_wf_refuses_sys_of_cls : (Instr.sys 0x0E0#12).wellFormed = false := by decide
theorem test_wf_refuses_sys_of_ret : (Instr.sys 0x0EE#12).wellFormed = false := by decide
theorem test_wf_refuses_recognized_8 : (Instr.unrecognized 0x8AB6#16).wellFormed = false := by decide
theorem test_wf_refuses_recognized_e : (Instr.unrecognized 0xE1A1#16).wellFormed = false := by decide
theorem test_wf_refuses_recognized_f : (Instr.unrecognized 0xF155#16).wellFormed = false := by decide
theorem test_wf_refuses_other_family : (Instr.unrecognized 0x1ABC#16).wellFormed = false := by decide
theorem test_wf_accepts : (Instr.sys 0x0E1#12).wellFormed = true ∧ (Instr.unrecognized 0x8ABF#16).wellFormed = true
    ∧ (Instr.unrecognized 0xE19F#16).wellFormed = true ∧ (Instr.unrecognized 0xFF75#16).wellFormed = true := by decide

/-! ### Decoding: words written out from R63 and R66, field by field -/

theorem test_decode_family_0 : decodeTableWord 16 0b0000000011100000 = some .cls
    ∧ decodeTableWord 16 0b0000000011101110 = some .ret ∧ decodeTableWord 16 0x00E1 = some (.sys 0x0E1#12)
    ∧ decodeTableWord 16 0x0000 = some (.sys 0x000#12) := by decide
theorem test_decode_families_1_2 : decodeTableWord 16 0b0001101010111100 = some (.jp 0xABC#12)
    ∧ decodeTableWord 16 0x10E0 = some (.jp 0x0E0#12) ∧ decodeTableWord 16 0b0010001101000101 = some (.call 0x345#12) := by decide
theorem test_decode_families_3_4 : decodeTableWord 16 0b0011001100101010 = some (.seImm 0x3#4 0x2A#8)
    ∧ decodeTableWord 16 0b0100001100101010 = some (.sneImm 0x3#4 0x2A#8) := by decide
theorem test_decode_families_5_9 : decodeTableWord 16 0b0101000100100001 = some (.seReg 0x1#4 0x2#4 0x1#4)
    ∧ decodeTableWord 16 0b1001000100101111 = some (.sneReg 0x1#4 0x2#4 0xF#4) := by decide
theorem test_decode_families_6_7 : decodeTableWord 16 0b0110101010011101 = some (.ldImm 0xA#4 0x9D#8)
    ∧ decodeTableWord 16 0b0111000000000010 = some (.addImm 0x0#4 0x02#8) := by decide
theorem test_decode_family_8_logic : decodeTableWord 16 0x8AB0 = some (.ldReg 0xA#4 0xB#4)
    ∧ decodeTableWord 16 0x8AB1 = some (.orReg 0xA#4 0xB#4) ∧ decodeTableWord 16 0x8AB2 = some (.andReg 0xA#4 0xB#4)
    ∧ decodeTableWord 16 0x8AB3 = some (.xorReg 0xA#4 0xB#4) := by decide
theorem test_decode_family_8_arithmetic : decodeTableWord 16 0b1000101010110100 = some (.addReg 0xA#4 0xB#4)
    ∧ decodeTableWord 16 0x8AB5 = some (.sub 0xA#4 0xB#4) ∧ decodeTableWord 16 0x8AB6 = some (.shr 0xA#4 0xB#4)
    ∧ decodeTableWord 16 0x8AB7 = some (.subr 0xA#4 0xB#4) ∧ decodeTableWord 16 0x8ABE = some (.shl 0xA#4 0xB#4) := by decide
theorem test_decode_family_8_unrecognized : decodeTableWord 16 0x8AB8 = some (.unrecognized 0x8AB8#16)
    ∧ decodeTableWord 16 0x8ABF = some (.unrecognized 0x8ABF#16) := by decide
theorem test_decode_families_a_b_c : decodeTableWord 16 0b1010001100000000 = some (.ldI 0x300#12)
    ∧ decodeTableWord 16 0b1011001100000000 = some (.jpV0 0x300#12)
    ∧ decodeTableWord 16 0b1100001100001111 = some (.rnd 0x3#4 0x0F#8) := by decide
theorem test_decode_family_d : decodeTableWord 16 0b1101000100100101 = some (.drw 0x1#4 0x2#4 0x5#4) := by decide
theorem test_decode_family_e : decodeTableWord 16 0b1110000110011110 = some (.skp 0x1#4)
    ∧ decodeTableWord 16 0xE1A1 = some (.sknp 0x1#4) ∧ decodeTableWord 16 0xE19F = some (.unrecognized 0xE19F#16) := by decide
theorem test_decode_family_f_timers : decodeTableWord 16 0b1111001000000111 = some (.ldVxDt 0x2#4)
    ∧ decodeTableWord 16 0xF20A = some (.ldVxK 0x2#4) ∧ decodeTableWord 16 0xF215 = some (.ldDtVx 0x2#4)
    ∧ decodeTableWord 16 0xF218 = some (.ldStVx 0x2#4) := by decide
theorem test_decode_family_f_memory : decodeTableWord 16 0xF21E = some (.addI 0x2#4)
    ∧ decodeTableWord 16 0xF229 = some (.ldF 0x2#4) ∧ decodeTableWord 16 0xF233 = some (.bcd 0x2#4)
    ∧ decodeTableWord 16 0xF155 = some (.stm 0x1#4) ∧ decodeTableWord 16 0xF165 = some (.ldm 0x1#4) := by decide
theorem test_decode_family_f_unrecognized : decodeTableWord 16 0xF000 = some (.unrecognized 0xF000#16)
    ∧ decodeTableWord 16 0xFF75 = some (.unrecognized 0xFF75#16) := by decide
/-- S1 of 95_test_vectors.md. -/
theorem test_decode_fields : decode 0xD1#8 0x25#8 0x0234#16
    = ⟨0xD125#16, 0x125#12, 0x1#4, 0x2#4, 0x25#8, 0x5#4, 0x0234#16⟩ := by decide
theorem test_encode : encode (.drw 0x1#4 0x2#4 0x5#4) = 0xD125#16 ∧ encode (.call 0x345#12) = 0x2345#16
    ∧ encode (.ldm 0x2#4) = 0xF265#16 ∧ encode (.shr 0xA#4 0xB#4) = 0x8AB6#16 := by decide

/-! ### Fetching -/

/-- R42: the high byte stands at the lower address. -/
theorem test_placed_word : (State.reset.withFetchWord 16 0x6A9D).readByte 0x200 = 0x6A#8
    ∧ (State.reset.withFetchWord 16 0x6A9D).readByte 0x201 = 0x9D#8 := by decide
/-- 95_test_vectors.md 2.3: an odd address. -/
theorem test_fetch_odd : look (ran 0x6A11 (State.reset.setPc 0x201#16)) (fun t => (t.getV 0xA#4, t.pc))
    = some (0x11#8, 0x203#16) := by decide
/-- 95_test_vectors.md 2.3: the last word of memory, then the fault of the next fetch. -/
theorem test_fetch_last : look (ran 0x6142 (State.reset.setPc 0xFFE#16)) (fun t => (t.getV 0x1#4, t.pc))
    = some (0x42#8, 0x1000#16) := by decide
theorem test_fetch_fault : look (step ((State.reset.setPc 0x0FFF#16).setTurns [.instrReady])) (fun t => (t.fr, t.mode, t.pc))
    = some (some ⟨.fetchOutOfRange, 0x0FFF#16, none⟩, .faulted, 0x0FFF#16) := by decide
/-- E6: the reset state with an empty program. -/
theorem test_empty_program : look (step (State.reset.setTurns [.instrReady])) (fun t => (t.pc, t.trace))
    = some (0x202#16, [.log (.sysCall 0x000#12 0x200#16)]) := by decide
theorem test_reset_memory : State.reset.mem = [] ∧ State.reset.readByte 0x000 = 0xF0#8 ∧ State.reset.readByte 0x04F = 0x80#8
    ∧ State.reset.readByte 0x050 = 0x00#8 := by decide

/-! ### System (2.2) -/

theorem test_cls : look (ran 0x00E0 (((regs [(0xF#4, 1#8)]).setFb [(0, 0), (31, 63)]).setDt 1#8))
    (fun t => (t.fb, t.getV 0xF#4, t.dt, t.trace)) = some ([], 1#8, 0#8, [.clearDisplay]) := by decide
theorem test_sys : look (ran 0x00E1 State.reset) (fun t => (t.pc, t.trace))
    = some (0x202#16, [.log (.sysCall 0x0E1#12 0x200#16)]) := by decide
theorem test_unrecognized : look (ran 0x8AB8 ((regs [(0xA#4, 1#8), (0xB#4, 2#8)]).setDt 5#8))
    (fun t => (t.getV 0xA#4, t.dt, t.trace)) = some (1#8, 4#8, [.log (.unrecognized 0x8AB8#16 0x200#16)]) := by decide

/-! ### Control (2.3) -/

theorem test_jp : look (ran 0x1ABC State.reset) (·.pc) = some 0x0ABC#16 := by decide
theorem test_jp_v0 : look (ran 0xBFFF (regs [(0x0#4, 0xFF#8)])) (·.pc) = some 0x10FE#16 := by decide
theorem test_call : look (ran 0x2345 (depth 15)) (fun t => (t.slot 15, t.sp, t.pc)) = some (0x202#16, 16, 0x345#16) := by decide
theorem test_call_overflow : look (ran 0x2345 ((depth 16).setDt 3#8)) (fun t => (t.fr, t.pc, t.sp, t.dt))
    = some (some ⟨.stackOverflow, 0x200#16, some 0x2345#16⟩, 0x202#16, 16, 3#8) := by decide
theorem test_ret : look (ran 0x00EE { depth 16 with stack := (Vector.replicate 16 0#16).set 15 0x31E#16 })
    (fun t => (t.sp, t.pc, t.slot 15)) = some (15, 0x31E#16, 0x31E#16) := by decide
theorem test_ret_underflow : look (ran 0x00EE (State.reset.setDt 3#8)) (fun t => (t.fr, t.pc, t.sp, t.dt))
    = some (some ⟨.stackUnderflow, 0x200#16, some 0x00EE#16⟩, 0x202#16, 0, 3#8) := by decide

/-! ### Skips (2.4) -/

theorem test_se_imm : look (ran 0x332A (regs [(0x3#4, 0x2A#8)])) (·.pc) = some 0x204#16
    ∧ look (ran 0x332A (regs [(0x3#4, 0x2B#8)])) (·.pc) = some 0x202#16 := by decide
theorem test_sne_imm : look (ran 0x432A (regs [(0x3#4, 0x2A#8)])) (·.pc) = some 0x202#16
    ∧ look (ran 0x4300 (regs [(0x3#4, 0x2A#8)])) (·.pc) = some 0x204#16 := by decide
theorem test_se_reg : look (ran 0x5121 (regs [(0x1#4, 7#8), (0x2#4, 7#8)])) (·.pc) = some 0x204#16 := by decide
theorem test_sne_reg : look (ran 0x912F (regs [(0x1#4, 7#8), (0x2#4, 8#8)])) (·.pc) = some 0x204#16 := by decide
theorem test_skp : look (ran 0xE29E ((regs [(0x2#4, 7#8)]).setInput (some 7#4))) (·.pc) = some 0x204#16
    ∧ look (ran 0xE09E State.reset) (·.pc) = some 0x202#16 := by decide
theorem test_sknp : look (ran 0xE2A1 ((regs [(0x2#4, 0x17#8)]).setInput (some 7#4))) (·.pc) = some 0x204#16
    ∧ look (ran 0xE2A1 ((regs [(0x2#4, 7#8)]).setInput (some 7#4))) (·.pc) = some 0x202#16 := by decide

/-! ### Load and ALU (2.5) -/

theorem test_ld_imm : look (ran 0x6A9D State.reset) (·.getV 0xA#4) = some 0x9D#8 := by decide
theorem test_add_imm : look (ran 0x7001 (regs [(0x0#4, 0xFF#8)])) (fun t => (t.getV 0x0#4, t.getV 0xF#4)) = some (0#8, 0#8) := by
  decide
theorem test_ld_reg : look (ran 0x8120 (regs [(0x2#4, 0x33#8)])) (·.getV 0x1#4) = some 0x33#8 := by decide
theorem test_or : look (ran 0x8121 (regs [(0x1#4, 0xF0#8), (0x2#4, 0x0F#8), (0xF#4, 1#8)]))
    (fun t => (t.getV 0x1#4, t.getV 0xF#4)) = some (0xFF#8, 1#8) := by decide
theorem test_and : look (ran 0x8122 (regs [(0x1#4, 0xF3#8), (0x2#4, 0x3F#8)])) (·.getV 0x1#4) = some 0x33#8 := by decide
theorem test_xor : look (ran 0x8123 (regs [(0x1#4, 0xFF#8), (0x2#4, 0x0F#8)])) (·.getV 0x1#4) = some 0xF0#8 := by decide
theorem test_add_reg : look (ran 0x8124 (regs [(0x1#4, 0xFF#8), (0x2#4, 0x01#8)])) (fun t => (t.getV 0x1#4, t.getV 0xF#4))
    = some (0x00#8, 1#8) := by decide
theorem test_add_reg_flag_wins : look (ran 0x8F14 (regs [(0xF#4, 0x10#8), (0x1#4, 0x20#8)])) (·.getV 0xF#4) = some 0#8 := by decide
theorem test_sub : look (ran 0x8125 (regs [(0x1#4, 3#8), (0x2#4, 5#8)])) (fun t => (t.getV 0x1#4, t.getV 0xF#4))
    = some (0xFE#8, 0#8) := by decide
theorem test_sub_equal : look (ran 0x8125 (regs [(0x1#4, 7#8), (0x2#4, 7#8), (0xF#4, 1#8)]))
    (fun t => (t.getV 0x1#4, t.getV 0xF#4)) = some (0#8, 0#8) := by decide
theorem test_shr : look (ran 0x8126 (regs [(0x1#4, 5#8), (0x2#4, 0xAA#8)])) (fun t => (t.getV 0x1#4, t.getV 0x2#4, t.getV 0xF#4))
    = some (2#8, 0xAA#8, 1#8) := by decide
theorem test_shr_flag_register : look (ran 0x8F06 (regs [(0xF#4, 0xFF#8)])) (·.getV 0xF#4) = some 0#8 := by decide
theorem test_subr : look (ran 0x8127 (regs [(0x1#4, 3#8), (0x2#4, 5#8)])) (fun t => (t.getV 0x1#4, t.getV 0x2#4, t.getV 0xF#4))
    = some (3#8, 2#8, 1#8) := by decide
theorem test_subr_flag_register_source : look (ran 0x8F17 (regs [(0xF#4, 2#8), (0x1#4, 9#8)]))
    (fun t => (t.getV 0x1#4, t.getV 0xF#4)) = some (7#8, 1#8) := by decide
theorem test_shl : look (ran 0x810E (regs [(0x1#4, 0x81#8)])) (fun t => (t.getV 0x1#4, t.getV 0xF#4)) = some (2#8, 1#8) := by decide
theorem test_shl_flag_register : look (ran 0x8F0E (regs [(0xF#4, 0xC1#8)])) (·.getV 0xF#4) = some 2#8 := by decide
theorem test_rnd_draws_once : look (ran 0xC30F State.reset) (fun t => (t.draws, t.pc, t.getV 0xF#4)) = some (1, 0x202#16, 0#8) := by
  decide

/-! ### Address register and memory (2.6) -/

theorem test_ld_i : look (ran 0xA300 State.reset) (·.i) = some 0x300#16 := by decide
theorem test_add_i : look (ran 0xF11E ((regs [(0x1#4, 0xFF#8)]).setI 0xFFF#16)) (fun t => (t.i, t.getV 0xF#4))
    = some (0x0FE#16, 0#8) := by decide
theorem test_ld_f : look (ran 0xF129 (regs [(0x1#4, 0xFF#8)])) (·.i) = some 0x4FB#16 := by decide
theorem test_bcd : look (ran 0xF133 ((regs [(0x1#4, 123#8)]).setI 0xFFD#16))
    (fun t => (t.readBytes 0xFFD 3, t.i)) = some ([1#8, 2#8, 3#8], 0xFFD#16) := by decide
theorem test_bcd_fault : look (ran 0xF133 (((regs [(0x1#4, 123#8)]).setI 0xFFE#16).setDt 2#8))
    (fun t => (t.fr, t.readByte 0xFFE, t.pc, t.dt))
    = some (some ⟨.memoryOutOfRange 0x1000#16, 0x200#16, some 0xF133#16⟩, 0#8, 0x202#16, 2#8) := by decide
theorem test_stm : look (ran 0xF255 ((regs [(0x0#4, 0x11#8), (0x1#4, 0x22#8), (0x2#4, 0x33#8), (0x3#4, 0x44#8)]).setI 0x400#16))
    (fun t => (t.readBytes 0x400 4, t.i)) = some ([0x11#8, 0x22#8, 0x33#8, 0#8], 0x400#16) := by decide
theorem test_stm_fault : look (ran 0xF155 ((regs [(0x0#4, 0xAB#8)]).setI 0xFFF#16)) (fun t => (t.mode, t.readByte 0xFFF))
    = some (.faulted, 0#8) := by decide
theorem test_ldm : look (ran 0xF065 (((regs [(0x1#4, 0x77#8)]).setI 0x300#16).writeBytes 0x300 [0x12#8, 0x34#8]))
    (fun t => (t.getV 0x0#4, t.getV 0x1#4, t.i)) = some (0x12#8, 0x77#8, 0x300#16) := by decide
theorem test_ldm_fault : look (ran 0xF165 (State.reset.setI 0xFFF#16)) (fun t => (t.mode, t.getV 0x0#4))
    = some (.faulted, 0#8) := by decide

/-! ### Drawing (2.7) -/

theorem test_drw_collision : look (ran 0xD011 (((State.reset.setI 0x300#16).writeByte 0x300 0xC0#8).setFb [(0, 1), (0, 2)]))
    (fun t => (t.fb, t.getV 0xF#4)) = some ([(0, 0), (0, 2)], 1#8) := by decide
theorem test_drw_wraps : look (ran 0xD012 (((regs [(0x0#4, 62#8), (0x1#4, 31#8)]).setI 0x20C#16).writeBytes 0x20C [0xFF#8, 0x81#8]))
    (fun t => (t.fb, t.getV 0xF#4))
    = some ([(0, 5), (0, 62), (31, 0), (31, 1), (31, 2), (31, 3), (31, 4), (31, 5), (31, 62), (31, 63)], 0#8) := by decide

/-! ### Timers and keys (2.8, 3) -/

theorem test_ld_vx_dt : look (ran 0xF107 (State.reset.setDt 9#8)) (fun t => (t.getV 0x1#4, t.dt)) = some (9#8, 8#8) := by decide
theorem test_ld_dt_vx : look (ran 0xF015 ((regs [(0x0#4, 0xFF#8)]).setSt 1#8)) (fun t => (t.dt, t.st)) = some (254#8, 0#8) := by
  decide
theorem test_ld_st_vx : look (ran 0xF318 ((regs [(0x3#4, 0x20#8)]).setDt 4#8)) (fun t => (t.st, t.dt)) = some (0x1F#8, 3#8) := by
  decide
theorem test_ld_vx_k : look (ran 0xFF0A ((State.reset.setDt 4#8).setInput (some 5#4))) (fun t => (t.kw, t.pc, t.dt, t.getV 0xF#4))
    = some (some 0xF#4, 0x202#16, 3#8, 0#8) := by decide
/-- E1: a press ends the key hold. -/
theorem test_press_ends_hold :
    look (step (((State.reset.setKw (some 0x2#4)).setInputQueue [some 7#4]).setTurns [.inputReady]))
      (fun t => (t.input, t.getV 0x2#4, t.kw)) = some (some 7#4, 7#8, none) := by decide
/-- E2: quit abandons the key hold. -/
theorem test_quit_in_hold : look (step ((State.reset.setKw (some 0x2#4)).setTurns [.quitReady])) (fun t => (t.mode, t.kw))
    = some (.stopped, some 0x2#4) := by decide
/-- E7. -/
theorem test_terminal : step (State.reset.setMode .stopped) = .fault .stopped ∧ step (State.reset.setMode .faulted) = .fault .faulted :=
  ⟨rfl, rfl⟩
/-- E6: in debug mode a frame executes nothing. -/
theorem test_debug_rests : look (step (debugReset.setTurns [.frameReady])) (fun t => (t.pc, t.mode))
    = some (0x200#16, .awaitingManualStep) := by decide

/-! ### Witnesses: for each statement with hypotheses, data that meets them, clause by clause and at the ends of the ranges -/

/-- A state about to serve an instruction at the last address a fetch may have. -/
def lastFetch : State := (State.reset.setPc 0x0FFE#16).setTurns [.instrReady]

theorem serves_of_running {s : State} (hm : s.mode = .running) (hk : s.kw = none) (ht : s.nextTurn = some .instrReady) :
    ServesInstruction s := ⟨by rw [hm]; rfl, hk, ht⟩

theorem witness_DecodeOfEncodeIsTheInstruction : (Instr.sys 0xFFF#12).wellFormed = true
    ∧ (Instr.unrecognized 0xF000#16).wellFormed = true ∧ (Instr.drw 0xF#4 0xF#4 0xF#4).wellFormed = true := by decide

theorem witness_ResolverFollowsTheOpcodeMap : (⟨"CLS", 0xFFFF#16, 0x00E0#16⟩ : OpcodeRow) ∈ opcodeTable
    ∧ (⟨"SYS", 0xF000#16, 0x0000#16⟩ : OpcodeRow) ∈ opcodeTable
    ∧ OpcodeRow.fits ⟨"CLS", 0xFFFF#16, 0x00E0#16⟩ 0x00E0#16 = true ∧ OpcodeRow.fits ⟨"SYS", 0xF000#16, 0x0000#16⟩ 0x00E0#16 = true
    ∧ (⟨"CLS", 0xFFFF#16, 0x00E0#16⟩ : OpcodeRow) ≠ ⟨"SYS", 0xF000#16, 0x0000#16⟩ := by decide

theorem witness_StepRunsTheDecodedInstruction : ServesInstruction lastFetch ∧ lastFetch.pc.toNat = 0xFFE
    ∧ decodeBytes [lastFetch.readByte lastFetch.pc.toNat, lastFetch.readByte (lastFetch.pc.toNat + 1)]
      = .ok (.sys 0x000#12, []) :=
  ⟨serves_of_running rfl rfl rfl, by decide, rfl⟩

theorem witness_FetchPastMemoryFaults :
    (ServesInstruction ((State.reset.setPc 0x0FFF#16).setTurns [.instrReady])
        ∧ ((State.reset.setPc 0x0FFF#16).setTurns [.instrReady]).pc.toNat > 0xFFE)
      ∧ ServesInstruction ((State.reset.setPc 0x10FE#16).setTurns [.instrReady])
      ∧ ((State.reset.setPc 0x10FE#16).setTurns [.instrReady]).pc.toNat > 0xFFE :=
  ⟨⟨serves_of_running rfl rfl rfl, by decide⟩, serves_of_running rfl rfl rfl, by decide⟩

theorem witness_ExecutionFaultsExactlyOnItsCondition :
    faultCause (.call 0x300#12) (depth 16) = some .stackOverflow ∧ faultCause (.call 0x300#12) (depth 15) = none
    ∧ faultCause .ret (depth 0) = some .stackUnderflow ∧ faultCause .ret (depth 1) = none
    ∧ faultCause (.drw 0#4 0#4 2#4) (State.reset.setI 0xFFF#16) = some (.memoryOutOfRange 0x1000#16)
    ∧ faultCause (.drw 0#4 0#4 1#4) (State.reset.setI 0xFFF#16) = none
    ∧ faultCause (.bcd 0#4) (State.reset.setI 0xFFE#16) = some (.memoryOutOfRange 0x1000#16)
    ∧ faultCause (.bcd 0#4) (State.reset.setI 0xFFD#16) = none
    ∧ faultCause (.stm 15#4) (State.reset.setI 0xFF1#16) = some (.memoryOutOfRange 0x1000#16)
    ∧ faultCause (.stm 15#4) (State.reset.setI 0xFF0#16) = none
    ∧ faultCause (.ldm 1#4) (State.reset.setI 0xFFF#16) = some (.memoryOutOfRange 0x1000#16)
    ∧ faultCause (.ldm 0#4) (State.reset.setI 0xFFF#16) = none := by decide

theorem witness_TimersTickOncePerInstruction : faultCause .cls (State.reset.setDt 1#8) = none ∧ faultCause .ret (depth 0) ≠ none
    ∧ Turn.frameReady ≠ .instrReady
    ∧ look (execAll [.cls, .jp 0x300#12] (State.reset.setDt 5#8)) (fun t => (t.mode, t.dt)) = some (.running, 3#8)
    ∧ ∀ x, Instr.ldDtVx x ∉ [Instr.cls, .jp 0x300#12] := by
  refine ⟨by decide, by decide, by decide, by decide, fun x => by simp⟩

theorem witness_UnrecognizedWordIsLoggedAndContinued : unrecognizedWord 0x8008#16 = true ∧ unrecognizedWord 0xEFFF#16 = true
    ∧ unrecognizedWord 0xF000#16 = true := by decide

theorem witness_SysIsALoggedNoOp : (0x0E1#12 : Addr) ≠ 0x0E0#12 ∧ (0x0E1#12 : Addr) ≠ 0x0EE#12 := by decide

theorem witness_RetPopsTheReturnAddress : (0 : Fin 16).val + 1 = (depth 1).sp.val ∧ (15 : Fin 16).val + 1 = (depth 16).sp.val
    ∧ (depth 0).sp.val = 0 := by decide

theorem witness_CallPushesTheReturnAddress : (depth 0).sp.val = (0 : Fin 16).val ∧ (depth 15).sp.val = (15 : Fin 16).val
    ∧ (depth 16).sp.val = 16 := by decide

theorem witness_ReturnAfterCallResumes : (depth 15).sp.val < 16 := by decide

theorem witness_StackIsTouchedByCallAndRetOnly : (∀ nnn, Instr.ret ≠ .call nnn) ∧ (∀ nnn, Instr.cls ≠ .call nnn) ∧ Instr.cls ≠ .ret :=
  ⟨fun _ h => (by cases h), fun _ h => (by cases h), by decide⟩

theorem witness_KeySkips :
    (∃ k, ((regs [(0x2#4, 15#8)]).setInput (some 15#4)).input = some k
        ∧ k.toNat = (((regs [(0x2#4, 15#8)]).setInput (some 15#4)).getV 0x2#4).toNat)
    ∧ (∀ k, ((regs [(0x2#4, 0x17#8)]).setInput (some 7#4)).input = some k →
        k.toNat ≠ (((regs [(0x2#4, 0x17#8)]).setInput (some 7#4)).getV 0x2#4).toNat)
    ∧ ∀ k, State.reset.input = some k → k.toNat ≠ (State.reset.getV 0x0#4).toNat :=
  ⟨⟨15#4, by decide⟩, by decide, by decide⟩

theorem witness_AddWritesTheCarry : (0xE#4 : RegIdx) ≠ 0xF#4 := by decide

theorem witness_SubtractionsWriteNoBorrow : (0x0#4 : RegIdx) ≠ 0xF#4 := by decide

theorem witness_ShiftsWriteTheBitShiftedOut : (0xE#4 : RegIdx) ≠ 0xF#4 ∧ (0xF#4 : RegIdx) = 0xF#4 := by decide

theorem witness_OneRegisterAsBothOperands : (0xE#4 : RegIdx) ≠ 0xF#4 := by decide

theorem witness_FlagRegisterIsOtherwiseUntouched : mayWriteFlag (.orReg 0xE#4 0xF#4) = false ∧ mayWriteFlag (.ldm 0xE#4) = false
    ∧ mayWriteFlag .cls = false ∧ mayWriteFlag (.ldVxK 0xF#4) = false := by decide

theorem witness_StoresWriteTheirBytes : (State.reset.setI 0xFFD#16).i.toNat + 2 ≤ 0xFFF
    ∧ (State.reset.setI 0xFF0#16).i.toNat + (15#4 : RegIdx).toNat ≤ 0xFFF
    ∧ (State.reset.setI 0xFFF#16).i.toNat + (0#4 : RegIdx).toNat ≤ 0xFFF := by decide

theorem witness_LoadsReadTheirBytes : (State.reset.setI 0xFF0#16).i.toNat + (15#4 : RegIdx).toNat ≤ 0xFFF
    ∧ (State.reset.setI 0xFF1#16).i.toNat + (15#4 : RegIdx).toNat > 0xFFF := by decide

theorem witness_StoredCodeIsFetched : (State.reset.setI 0xFFE#16).i.toNat + (1#4 : RegIdx).toNat ≤ 0xFFF
    ∧ (1#4 : RegIdx).toNat = (0#4 : RegIdx).toNat + 1 ∧ (1#4 : RegIdx).toNat ≤ (1#4 : RegIdx).toNat := by decide

theorem witness_MemoryChangesOnlyByStores : ∃ t, step (((regs [(0x0#4, 9#8)]).setI 0xFFF#16).withFetchWord 16 0xF055) = .next t
    ∧ t.readByte 0xFFF ≠ (((regs [(0x0#4, 9#8)]).setI 0xFFF#16).withFetchWord 16 0xF055).readByte 0xFFF :=
  ⟨_, rfl, by decide⟩

theorem witness_DrawSpriteIsXor : (List.replicate 15 0xFF#8 : List Byte).length ≤ 15 := by decide

theorem witness_DrwDrawsAndReportsCollision : (State.reset.setI 0xFFF#16).i.toNat + (1#4 : Nibble).toNat - 1 ≤ 0xFFF
    ∧ (State.reset.setI 0xFF1#16).i.toNat + (15#4 : Nibble).toNat - 1 ≤ 0xFFF
    ∧ (∃ r c, (State.reset.setFb [(0, 7)]).pixel r c = true ∧ SpriteCovers State.reset.config [0x01#8] 0#8 0#8 r c)
    ∧ ∀ r c, State.reset.pixel r c = true → ¬ SpriteCovers State.reset.config [0x01#8] 0#8 0#8 r c :=
  ⟨by decide, by decide, ⟨0, 7, by decide, 0, 7, 0x01#8, by decide⟩, fun _ _ h => (by simp [State.pixel, State.reset, Bitmap.isSet] at h)⟩

theorem witness_DrawingTwiceRestoresTheDisplay : (0x0#4 : RegIdx) ≠ 0xF#4 ∧ (0x1#4 : RegIdx) ≠ 0xF#4
    ∧ Bitmap.wf State.reset.config [(0, 1), (31, 63)]
    ∧ (State.reset.setI 0xFFE#16).i.toNat + (2#4 : Nibble).toNat - 1 ≤ 0xFFF := by decide

/-- A key hold on `V[2]`, with the next turn and the reports waiting. -/
def holding (turn : Turn) (reports : List (Option Key)) : State :=
  ((State.reset.setKw (some 0x2#4)).setInputQueue reports).setTurns [turn]

theorem witness_KeyHoldEndsWithAPress : (holding .instrReady []).mode.terminal = false ∧ (holding .instrReady []).kw = some 0x2#4
    ∧ (holding .instrReady []).nextTurn = some .instrReady ∧ (holding .inputReady [some 7#4]).nextTurn = some .inputReady
    ∧ (holding .inputReady [some 7#4]).inputQueue = [some 7#4] ∧ (holding .inputReady [none]).inputQueue = [none] := by decide

theorem witness_InputReportsReplaceInput : (State.reset.setTurns [.inputReady]).mode.terminal = false ∧ State.reset.kw = none
    ∧ (State.reset.setTurns [.inputReady]).nextTurn = some .inputReady
    ∧ ((State.reset.setTurns [.inputReady]).setInputQueue [none, some 3#4]).inputQueue = none :: [some 3#4]
    ∧ (State.reset.setTurns [.keyReport (some 3#4)]).nextTurn = some (.keyReport (some 3#4)) := by decide

theorem witness_FrameChangesNoCoreState : (State.reset.setTurns [.frameReady]).mode.terminal = false
    ∧ (State.reset.setTurns [.frameReady]).nextTurn = some .frameReady := by decide

theorem witness_QuitStopsTheMachine : (holding .quitReady []).mode.terminal = false
    ∧ (holding .quitReady []).nextTurn = some .quitReady := by decide

theorem witness_OnlyTerminalModesHaveNoNextState : (State.reset.setMode .stopped).mode = .stopped
    ∧ (State.reset.setMode .faulted).mode = .faulted := by decide

theorem witness_ModeTransitions : ∃ t, step (State.reset.setTurns [.quitReady]) = .next t := ⟨_, rfl⟩

/-- The debug machine with one turn settled. -/
def commanded (turn : Turn) : State := debugReset.setTurns [turn]

theorem witness_DebugStepperExecutesOneInstruction : (commanded .frameReady).mode = .awaitingManualStep
    ∧ (commanded .frameReady).turns = .frameReady :: [] ∧ (commanded .instrReady).mode = .awaitingManualStep
    ∧ (commanded .instrReady).kw = none ∧ (commanded .instrReady).turns = .instrReady :: []
    ∧ (commanded .instrReady).pc.toNat ≤ 0xFFE ∧ resolve (commanded .instrReady).fetchedWord = .sys 0x000#12
    ∧ faultCause (.sys 0x000#12) (commanded .instrReady) = none := by decide

theorem witness_EventsNeverRedirectTheProgram : (∃ t, step (holding .inputReady [some 7#4]) = .next t)
    ∧ (holding .inputReady [some 7#4]).nextTurn ≠ some .instrReady := ⟨⟨_, rfl⟩, by decide⟩

theorem witness_FramesDoNotMatter : ∃ a b,
    Host.Core.run core 4 (State.reset.setTurns [.instrReady, .frameReady, .frameReady, .instrReady]) = .next a
    ∧ Host.Core.run core 2 (State.reset.setTurns [.instrReady, .instrReady]) = .next b := ⟨_, _, rfl, rfl⟩

/-- E5. -/
def racing : State :=
  ((regs [(0x2#4, 7#8)]).writeBytes 0x200 [0xE2#8, 0x9E#8]).setInputQueue [some 7#4]

theorem witness_InputRaceHasBothOutcomes : racing.mode.terminal = false ∧ racing.kw = none ∧ racing.pc.toNat ≤ 0xFFE
    ∧ resolve racing.fetchedWord = .skp 0x2#4 ∧ (racing.getV 0x2#4).toNat = (7#4 : Key).toNat ∧ racing.input = none
    ∧ racing.inputQueue = [some 7#4] := by decide

theorem witness_OutputsNeverFeedBack : State.reset.core = (State.reset.emit .renderFrame).core
    ∧ State.reset.trace ≠ (State.reset.emit .renderFrame).trace := ⟨rfl, by decide⟩

theorem witness_OnlyKeySkipsReadInput : ∀ x, Instr.ldVxK 0x0#4 ≠ .skp x ∧ Instr.ldVxK 0x0#4 ≠ .sknp x :=
  fun _ => ⟨fun h => (by cases h), fun h => (by cases h)⟩

theorem witness_BootLoadsOrFails : (List.replicate 79 0x00#8 : List Byte).length ≠ 80
    ∧ (List.replicate 80 0x00#8 : List Byte).length = 80
    ∧ 0x200 + (List.replicate 3585 0x00#8 : List Byte).length > 4096
    ∧ 0x200 + (List.replicate 3584 0x00#8 : List Byte).length ≤ 4096 := by
  simp only [List.length_replicate]
  decide

theorem witness_BootLeavesTheResetState : (∃ s, boot defaultConfig (List.replicate 80 0x01#8) [0x12#8, 0x00#8] = .ok s)
    ∧ (List.replicate 80 0x01#8 : List Byte)[79]? = some 0x01#8 ∧ (80 ≤ 80 ∧ 80 < 0x200)
    ∧ (80 ≤ 0x202 ∧ 0x200 + ([0x12#8, 0x00#8] : List Byte).length ≤ 0x202) := ⟨⟨_, rfl⟩, by decide⟩

theorem witness_InvariantIsKeptByEveryStep : (((State.reset.setI 0xFFF#16).setPc 0x0FFE#16).setTurns [.instrReady]).Inv
    ∧ ∃ t, step (((State.reset.setI 0xFFF#16).setPc 0x0FFE#16).setTurns [.instrReady]) = .next t :=
  ⟨{ index := by decide
     counter := by decide
     slots := fun _ h => absurd h (Nat.not_lt_zero _)
     memory := by decide
     bitmap := by decide
     faultRecord := by decide
     operation := by decide }, ⟨_, rfl⟩⟩

theorem witness_EveryOrderOfEventsIsAdmitted : State.reset.mode.terminal = false ∧ State.reset.turns = []
    ∧ debugReset.mode.terminal = false ∧ debugReset.turns = [] := by decide

end Sys2Proof.Tests
end

section
/-! PROOFS. The fields the decoder extracts (30_encoding.md R61). The rule masks and shifts the two bytes, the model cuts the word;
each field lemma says, of any word and the two bytes it is stored as, that both give the same field. -/

namespace Sys2Proof

/-! ### The cut of the word is the rule's mask and shift -/

theorem addrField_zeroExtend (w : Word) : (addrField w).zeroExtend 16 = w &&& 0x0FFF#16 := by
  apply BitVec.eq_of_getLsbD_eq
  intro k hk
  interval_cases k <;> simp [addrField]

theorem xField_zeroExtend (w : Word) : (xField w).zeroExtend 8 = highByte w &&& 0x0F#8 := by
  apply BitVec.eq_of_getLsbD_eq
  intro k hk
  interval_cases k <;> simp [xField, highByte]

theorem yField_zeroExtend (w : Word) : (yField w).zeroExtend 8 = (lowByte w &&& 0xF0#8) >>> 4 := by
  apply BitVec.eq_of_getLsbD_eq
  intro k hk
  interval_cases k <;> simp [yField, lowByte]

theorem nibbleField_zeroExtend (w : Word) : (nibbleField w).zeroExtend 8 = lowByte w &&& 0x0F#8 := by
  apply BitVec.eq_of_getLsbD_eq
  intro k hk
  interval_cases k <;> simp [nibbleField, lowByte]

theorem kkField_eq_lowByte (w : Word) : kkField w = lowByte w := rfl

/-! ### The fields of a joined byte pair -/

theorem xField_joinBytes (hi lo : Byte) : (xField (joinBytes hi lo)).zeroExtend 8 = hi &&& 0x0F#8 := by
  rw [xField_zeroExtend, highByte_joinBytes]

theorem yField_joinBytes (hi lo : Byte) : (yField (joinBytes hi lo)).zeroExtend 8 = (lo &&& 0xF0#8) >>> 4 := by
  rw [yField_zeroExtend, lowByte_joinBytes]

theorem nibbleField_joinBytes (hi lo : Byte) : (nibbleField (joinBytes hi lo)).zeroExtend 8 = lo &&& 0x0F#8 := by
  rw [nibbleField_zeroExtend, lowByte_joinBytes]

theorem kkField_joinBytes (hi lo : Byte) : kkField (joinBytes hi lo) = lo := by
  rw [kkField_eq_lowByte, lowByte_joinBytes]

/-- Settles O4: the decoder cuts every field out of the joined word, and cutting is the rule's masking of its two bytes. -/
theorem decoderExtractsTheSixFields : Obligations.DecoderExtractsTheSixFields := by
  intro hi lo pc
  exact ⟨rfl, addrField_zeroExtend _, xField_joinBytes hi lo, yField_joinBytes hi lo, kkField_joinBytes hi lo,
    nibbleField_joinBytes hi lo, familyField_toNat _, rfl⟩

end Sys2Proof
end

section
/-! PROOFS. Frames of a completed step: what each part common to every instruction (the load of `PC`, R83's advance, R85's decrement)
leaves of a component, and from these how an instruction that only loads `PC` runs. -/

namespace Sys2Proof.Machine

/-! ### Components -/

theorem Component.same.trans {c : Component} {s t u : State} (hst : c.same s t) (htu : c.same t u) : c.same s u := by
  cases c <;> exact Eq.trans htu hst

theorem Component.same_setPc {c : Component} (hpc : c ≠ .pc) (s : State) (target : Word) : c.same s (s.setPc target) := by
  cases c
  case pc => exact absurd rfl hpc
  all_goals rfl

theorem Component.same_advance {c : Component} (hpc : c ≠ .pc) (s : State) : c.same s s.advance :=
  Component.same_setPc hpc s (s.pc + 2#16)

theorem Component.same_decrementTimers {c : Component} (hdt : c ≠ .dt) (hst : c ≠ .st) (s : State) :
    c.same s s.decrementTimers := by
  cases c
  case dt => exact absurd rfl hdt
  case st => exact absurd rfl hst
  all_goals rfl

/-! ### Completed instructions -/

/-- An instruction that completes in the dispatched state `u` runs to its end: the decrement adds nothing to what `u` changes but the
timers. -/
theorem RunsWith.of_retire {i : Instr} {s u : State} {touched : Component → Prop} {post : State → Prop}
    (hexec : exec i s = .next u.decrementTimers)
    (hframe : Unchanged (fun c => touched c ∨ c = .pc ∨ c = .dt ∨ c = .st) s u) (hpost : post u.decrementTimers) :
    RunsWith i s u.pc (u.dt.toNat - 1) (u.st.toNat - 1) touched post := by
  refine ⟨u.decrementTimers, hexec, rfl, tick_toNat u.dt, tick_toNat u.st, fun c hc => ?_, hpost⟩
  have hdt : c ≠ .dt := fun e => hc (.inr (.inr (.inl e)))
  have hst : c ≠ .st := fun e => hc (.inr (.inr (.inr e)))
  exact (hframe c hc).trans (Component.same_decrementTimers hdt hst u)

/-- An instruction whose dispatch is the advance and one load of `PC` changes nothing else but the timers. -/
theorem Runs.of_setPc {i : Instr} {s : State} {target : Word}
    (hexec : exec i s = .next ((s.advance.setPc target).decrementTimers)) : Runs i s target nothing anyState := by
  refine RunsWith.of_retire hexec (fun c hc => ?_) trivial
  have hpc : c ≠ .pc := fun e => hc (.inr (.inl e))
  exact (Component.same_advance hpc s).trans (Component.same_setPc hpc s.advance target)

end Sys2Proof.Machine
end

section
/-! PROOFS. Control transfer (42_control.md R96, R98): the words of the two jumps, their targets in the integers, and their runs. -/

namespace Sys2Proof

/-! ### The words of the jumps -/

theorem resolve_wordA_jp (nnn : Addr) : resolve (wordA 0x1#4 nnn) = .jp nnn := by
  simp [resolve, wordA_ne_exactMatch]

theorem resolve_wordA_jpV0 (nnn : Addr) : resolve (wordA 0xB#4 nnn) = .jpV0 nnn := by
  simp [resolve, wordA_ne_exactMatch]

namespace Machine

/-! ### The targets -/

theorem absoluteTarget_eq_ofNat (nnn : Addr) : absoluteTarget nnn = BitVec.ofNat 16 nnn.toNat :=
  (BitVec.ofNat_toNat 16 nnn).symm

/-- R98: both operands are widened to 16 bits before they are added, so the sum is that of the integers. -/
theorem offsetTarget_eq_ofNat (s : State) (nnn : Addr) :
    offsetTarget s nnn = BitVec.ofNat 16 (nnn.toNat + (s.getV 0x0#4).toNat) := by
  rw [BitVec.ofNat_add, BitVec.ofNat_toNat 16 (s.getV 0x0#4), ← absoluteTarget_eq_ofNat]
  rfl

/-! ### The runs -/

theorem runs_jp (nnn : Addr) (s : State) : Runs (.jp nnn) s (absoluteTarget nnn) nothing anyState := Runs.of_setPc rfl

theorem runs_jpV0 (nnn : Addr) (s : State) : Runs (.jpV0 nnn) s (offsetTarget s nnn) nothing anyState := Runs.of_setPc rfl

end Machine

/-- Settles O19: each jump is the advance and one load of `PC`, which completes for every operand. -/
theorem jumpsLoadTheProgramCounter : Obligations.JumpsLoadTheProgramCounter := by
  intro nnn s
  refine ⟨⟨resolve_wordA_jp nnn, ?_⟩, resolve_wordA_jpV0 nnn, ?_⟩
  · rw [← Machine.absoluteTarget_eq_ofNat]
    exact Machine.runs_jp nnn s
  · rw [← Machine.offsetTarget_eq_ofNat]
    exact Machine.runs_jpV0 nnn s

end Sys2Proof
end

section
/-! PROOFS. Conditional skips (43_skip.md): how a skip runs whatever its condition is (R100), then the immediate skips (R101, R102). -/

namespace Sys2Proof

/-! ### The words of the immediate skips -/

theorem resolve_wordXK_seImm (x : RegIdx) (kk : Byte) : resolve (wordXK 0x3#4 x kk) = .seImm x kk := by
  simp [resolve, wordXK_ne_exactMatch]

theorem resolve_wordXK_sneImm (x : RegIdx) (kk : Byte) : resolve (wordXK 0x4#4 x kk) = .sneImm x kk := by
  simp [resolve, wordXK_ne_exactMatch]

namespace Machine

/-! ### The skip -/

/-- R100: the skip adds its 2 to the `PC` the advance has left, so a taken one lands 4 past the fetch address. -/
theorem State.skipIf_advance (s : State) (taken : Bool) :
    s.advance.skipIf taken = s.advance.setPc (if taken then s.pc + 4#16 else s.pc + 2#16) := by
  have htwice : s.pc + 2#16 + 2#16 = s.pc + 4#16 := BitVec.add_assoc s.pc 2#16 2#16
  rw [State.skipIf_eq, State.advance_pc, htwice]

/-- An instruction whose dispatch is the advance and a skip changes nothing but `PC` and the timers. -/
theorem Runs.of_skipIf {i : Instr} {s : State} {taken : Bool}
    (hexec : exec i s = .next (s.advance.skipIf taken).decrementTimers) :
    Runs i s (if taken then s.pc + 4#16 else s.pc + 2#16) nothing anyState :=
  Runs.of_setPc (State.skipIf_advance s taken ▸ hexec)

/-! ### The runs of the immediate skips -/

theorem runs_seImm (x : RegIdx) (kk : Byte) (s : State) :
    Runs (.seImm x kk) s (if s.getV x == kk then s.pc + 4#16 else s.pc + 2#16) nothing anyState := Runs.of_skipIf rfl

theorem runs_sneImm (x : RegIdx) (kk : Byte) (s : State) :
    Runs (.sneImm x kk) s (if s.getV x != kk then s.pc + 4#16 else s.pc + 2#16) nothing anyState := Runs.of_skipIf rfl

end Machine

/-- Settles O20: each immediate skip is the advance and a skip, on equality or on its negation. -/
theorem immediateSkips : Obligations.ImmediateSkips := by
  intro x kk s
  refine ⟨⟨resolve_wordXK_seImm x kk, ?_⟩, resolve_wordXK_sneImm x kk, ?_⟩
  · simpa only [beq_iff_eq] using Machine.runs_seImm x kk s
  · simpa only [bne_iff_ne, ite_not] using Machine.runs_sneImm x kk s

end Sys2Proof
end

section
/-! PROOFS. Register load and ALU (44_alu.md), the classes that write `V[x]` and no flag: how an instruction runs whose dispatch is the
advance and one register write, then the loads and the immediate add (R112 to R114) and the logical operations (R115 to R117). -/

namespace Sys2Proof

/-! ### The words -/

theorem resolve_wordXK_ldImm (x : RegIdx) (kk : Byte) : resolve (wordXK 0x6#4 x kk) = .ldImm x kk := by
  simp [resolve, wordXK_ne_exactMatch]

theorem resolve_wordXK_addImm (x : RegIdx) (kk : Byte) : resolve (wordXK 0x7#4 x kk) = .addImm x kk := by
  simp [resolve, wordXK_ne_exactMatch]

/-- R65: a word of family 8 is left to the resolver of its low nibble. -/
theorem resolve_wordXYN_family8 (x y : RegIdx) (n : Nibble) :
    resolve (wordXYN 0x8#4 x y n) = resolveFamily8 (wordXYN 0x8#4 x y n) := by
  simp [resolve, wordXYN_ne_exactMatch]

theorem resolve_wordXYN_ldReg (x y : RegIdx) : resolve (wordXYN 0x8#4 x y 0x0#4) = .ldReg x y := by
  simp [resolve_wordXYN_family8, resolveFamily8]

theorem resolve_wordXYN_orReg (x y : RegIdx) : resolve (wordXYN 0x8#4 x y 0x1#4) = .orReg x y := by
  simp [resolve_wordXYN_family8, resolveFamily8]

theorem resolve_wordXYN_andReg (x y : RegIdx) : resolve (wordXYN 0x8#4 x y 0x2#4) = .andReg x y := by
  simp [resolve_wordXYN_family8, resolveFamily8]

theorem resolve_wordXYN_xorReg (x y : RegIdx) : resolve (wordXYN 0x8#4 x y 0x3#4) = .xorReg x y := by
  simp [resolve_wordXYN_family8, resolveFamily8]

namespace Machine

/-! ### One register write -/

theorem Component.same_setV {c : Component} {x : RegIdx} (hx : c ≠ .reg x) (s : State) (b : Byte) : c.same s (s.setV x b) := by
  cases c
  case reg y => exact State.getV_setV_ne s b fun e => hx (congrArg Component.reg e)
  all_goals rfl

/-- An instruction whose dispatch is the advance and one register write leaves the written byte in that register and changes nothing
else but `PC` and the timers. -/
theorem Runs.of_setV {i : Instr} {s : State} {x : RegIdx} {b : Byte}
    (hexec : exec i s = .next (s.advance.setV x b).decrementTimers) :
    Runs i s (s.pc + 2#16) (· = .reg x) (fun t => t.getV x = b) := by
  refine RunsWith.of_retire hexec (fun c hc => ?_) (State.getV_setV_same s.advance x b)
  have hx : c ≠ .reg x := fun e => hc (.inl e)
  have hpc : c ≠ .pc := fun e => hc (.inr (.inl e))
  exact (Component.same_advance hpc s).trans (Component.same_setV hx s.advance b)

/-- What holds of the next state may be weakened to what follows from it. -/
theorem Runs.imp {i : Instr} {s : State} {target : Word} {touched : Component → Prop} {post post' : State → Prop}
    (h : Runs i s target touched post) (himp : ∀ t, post t → post' t) : Runs i s target touched post' := by
  obtain ⟨t, hexec, hpc, hdt, hst, hframe, hpost⟩ := h
  exact ⟨t, hexec, hpc, hdt, hst, hframe, himp t hpost⟩

/-! ### The runs -/

theorem runs_ldImm (x : RegIdx) (kk : Byte) (s : State) :
    Runs (.ldImm x kk) s (s.pc + 2#16) (· = .reg x) (fun t => t.getV x = kk) := Runs.of_setV rfl

theorem runs_addImm (x : RegIdx) (kk : Byte) (s : State) :
    Runs (.addImm x kk) s (s.pc + 2#16) (· = .reg x) (fun t => t.getV x = s.getV x + kk) := Runs.of_setV rfl

theorem runs_ldReg (x y : RegIdx) (s : State) :
    Runs (.ldReg x y) s (s.pc + 2#16) (· = .reg x) (fun t => t.getV x = s.getV y) := Runs.of_setV rfl

theorem runs_orReg (x y : RegIdx) (s : State) :
    Runs (.orReg x y) s (s.pc + 2#16) (· = .reg x) (fun t => t.getV x = s.getV x ||| s.getV y) := Runs.of_setV rfl

theorem runs_andReg (x y : RegIdx) (s : State) :
    Runs (.andReg x y) s (s.pc + 2#16) (· = .reg x) (fun t => t.getV x = s.getV x &&& s.getV y) := Runs.of_setV rfl

theorem runs_xorReg (x y : RegIdx) (s : State) :
    Runs (.xorReg x y) s (s.pc + 2#16) (· = .reg x) (fun t => t.getV x = s.getV x ^^^ s.getV y) := Runs.of_setV rfl

end Machine

/-- Settles O23: each class is the advance and one write of `V[x]`; the immediate add of bytes is the sum modulo 256. -/
theorem loadsAndImmediateAdd : Obligations.LoadsAndImmediateAdd := by
  intro x y kk s
  refine ⟨⟨resolve_wordXK_ldImm x kk, Machine.runs_ldImm x kk s⟩, ⟨resolve_wordXK_addImm x kk, ?_⟩,
    resolve_wordXYN_ldReg x y, Machine.runs_ldReg x y s⟩
  exact (Machine.runs_addImm x kk s).imp fun t hsum => hsum ▸ BitVec.toNat_add (s.getV x) kk

/-- Settles O24: each class is the advance and one write of `V[x]`, the written byte being the operation on every bit. -/
theorem logicalOperations : Obligations.LogicalOperations := by
  intro x y s
  refine ⟨⟨resolve_wordXYN_orReg x y, ?_⟩, ⟨resolve_wordXYN_andReg x y, ?_⟩, resolve_wordXYN_xorReg x y, ?_⟩
  · exact (Machine.runs_orReg x y s).imp fun t hor k _ => hor ▸ BitVec.getLsbD_or
  · exact (Machine.runs_andReg x y s).imp fun t hand k _ => hand ▸ BitVec.getLsbD_and
  · exact (Machine.runs_xorReg x y s).imp fun t hxor k _ => hxor ▸ BitVec.getLsbD_xor

end Sys2Proof
end

section
/-! PROOFS. Address register (45_index_memory.md R130, R131): the words, the two values written to `I` in the integers, and how an
instruction runs whose dispatch is the advance and one write of `I`. -/

namespace Sys2Proof

/-! ### The words -/

theorem resolve_wordA_ldI (nnn : Addr) : resolve (wordA 0xA#4 nnn) = .ldI nnn := by
  simp [resolve, wordA_ne_exactMatch]

/-- R65: a word of family F is left to the resolver of its low byte. -/
theorem resolve_wordXK_familyF (x : RegIdx) (kk : Byte) :
    resolve (wordXK 0xF#4 x kk) = resolveFamilyF (wordXK 0xF#4 x kk) := by
  simp [resolve, wordXK_ne_exactMatch]

theorem resolve_wordXK_addI (x : RegIdx) : resolve (wordXK 0xF#4 x 0x1E#8) = .addI x := by
  simp [resolve_wordXK_familyF, resolveFamilyF]

namespace Machine

/-! ### The values in the integers -/

theorem absoluteTarget_toNat (nnn : Addr) : (absoluteTarget nnn).toNat = nnn.toNat :=
  BitVec.toNat_setWidth_of_le (by decide)

/-- R131: the mask keeps the low 12 bits, and the wrap of the 16-bit sum loses none of them since 4096 divides `2^16`. -/
theorem addToIndex_toNat (i : Word) (b : Byte) : (addToIndex i b).toNat = (i.toNat + b.toNat) % 4096 := by
  have hwiden : (b.zeroExtend 16).toNat = b.toNat := BitVec.toNat_setWidth_of_le (by decide)
  calc (addToIndex i b).toNat
      = (i + b.zeroExtend 16).toNat &&& (2 ^ 12 - 1) := BitVec.toNat_and _ _
    _ = (i + b.zeroExtend 16).toNat % 2 ^ 12 := Nat.and_two_pow_sub_one_eq_mod _ 12
    _ = (i.toNat + b.toNat) % 2 ^ 16 % 2 ^ 12 := by rw [BitVec.toNat_add, hwiden]
    _ = (i.toNat + b.toNat) % 4096 := Nat.mod_mod_of_dvd _ (by decide)

/-! ### One write of `I` -/

theorem Component.same_setI {c : Component} (hi : c ≠ .i) (s : State) (a : Word) : c.same s (s.setI a) := by
  cases c
  case i => exact absurd rfl hi
  all_goals rfl

/-- An instruction whose dispatch is the advance and one write of `I` leaves the written address in `I` and changes nothing else but
`PC` and the timers. -/
theorem Runs.of_setI {i : Instr} {s : State} {a : Word} (hexec : exec i s = .next (s.advance.setI a).decrementTimers) :
    Runs i s (s.pc + 2#16) (· = .i) (fun t => t.i = a) := by
  refine RunsWith.of_retire hexec (fun c hc => ?_) rfl
  have hi : c ≠ .i := fun e => hc (.inl e)
  have hpc : c ≠ .pc := fun e => hc (.inr (.inl e))
  exact (Component.same_advance hpc s).trans (Component.same_setI hi s.advance a)

/-! ### The runs -/

theorem runs_ldI (nnn : Addr) (s : State) :
    Runs (.ldI nnn) s (s.pc + 2#16) (· = .i) (fun t => t.i = absoluteTarget nnn) := Runs.of_setI rfl

theorem runs_addI (x : RegIdx) (s : State) :
    Runs (.addI x) s (s.pc + 2#16) (· = .i) (fun t => t.i = addToIndex s.i (s.getV x)) := Runs.of_setI rfl

end Machine

/-- Settles O31: each class is the advance and one write of `I`, of the widened operand or of the masked sum. -/
theorem indexRegisterLoads : Obligations.IndexRegisterLoads := by
  intro nnn x s
  refine ⟨⟨resolve_wordA_ldI nnn, ?_⟩, resolve_wordXK_addI x, ?_⟩
  · exact (Machine.runs_ldI nnn s).imp fun t hload => hload ▸ Machine.absoluteTarget_toNat nnn
  · exact (Machine.runs_addI x s).imp fun t hsum => hsum ▸ Machine.addToIndex_toNat s.i (s.getV x)

end Sys2Proof
end

section
/-! PROOFS. Timer transfers (47_timer_key.md R150, R151, R153): the words, and how an instruction runs whose dispatch is the advance
and a write of a timer, which the same step's decrement (R85) then lowers. -/

namespace Sys2Proof

/-! ### The words -/

theorem resolve_wordXK_ldVxDt (x : RegIdx) : resolve (wordXK 0xF#4 x 0x07#8) = .ldVxDt x := by
  simp [resolve_wordXK_familyF, resolveFamilyF]

theorem resolve_wordXK_ldDtVx (x : RegIdx) : resolve (wordXK 0xF#4 x 0x15#8) = .ldDtVx x := by
  simp [resolve_wordXK_familyF, resolveFamilyF]

theorem resolve_wordXK_ldStVx (x : RegIdx) : resolve (wordXK 0xF#4 x 0x18#8) = .ldStVx x := by
  simp [resolve_wordXK_familyF, resolveFamilyF]

namespace Machine

/-! ### One write of a timer -/

theorem Component.same_setDt {c : Component} (hdt : c ≠ .dt) (s : State) (b : Byte) : c.same s (s.setDt b) := by
  cases c
  case dt => exact absurd rfl hdt
  all_goals rfl

theorem Component.same_setSt {c : Component} (hst : c ≠ .st) (s : State) (b : Byte) : c.same s (s.setSt b) := by
  cases c
  case st => exact absurd rfl hst
  all_goals rfl

/-- An instruction whose dispatch is the advance and then touches the timers only ends with each timer one below what the dispatch
left in it, and changes nothing else but `PC`. -/
theorem RunsWith.of_timers {i : Instr} {s u : State} (hexec : exec i s = .next u.decrementTimers)
    (htimers : ∀ c : Component, c ≠ .dt → c ≠ .st → c.same s.advance u) :
    RunsWith i s (s.pc + 2#16) (u.dt.toNat - 1) (u.st.toNat - 1) nothing anyState := by
  have hadvanced : u.pc = s.pc + 2#16 := htimers .pc (by decide) (by decide)
  refine hadvanced ▸ RunsWith.of_retire hexec (fun c hc => ?_) trivial
  have hpc : c ≠ .pc := fun e => hc (.inr (.inl e))
  have hdt : c ≠ .dt := fun e => hc (.inr (.inr (.inl e)))
  have hst : c ≠ .st := fun e => hc (.inr (.inr (.inr e)))
  exact (Component.same_advance hpc s).trans (htimers c hdt hst)

/-! ### The runs -/

/-- R150: the advance leaves `DT` alone, so the byte loaded is the one before the decrement. -/
theorem runs_ldVxDt (x : RegIdx) (s : State) :
    Runs (.ldVxDt x) s (s.pc + 2#16) (· = .reg x) (fun t => t.getV x = s.dt) := Runs.of_setV rfl

/-- R151: the decrement finds `V[x]` in `DT`, and `ST` as it was. -/
theorem runsWith_ldDtVx (x : RegIdx) (s : State) :
    RunsWith (.ldDtVx x) s (s.pc + 2#16) ((s.getV x).toNat - 1) (s.st.toNat - 1) nothing anyState :=
  RunsWith.of_timers (u := s.advance.setDt (s.getV x)) rfl fun _ hdt _ => Component.same_setDt hdt s.advance (s.getV x)

/-- R153: the decrement finds `V[x]` in `ST`, and `DT` as it was. -/
theorem runsWith_ldStVx (x : RegIdx) (s : State) :
    RunsWith (.ldStVx x) s (s.pc + 2#16) (s.dt.toNat - 1) ((s.getV x).toNat - 1) nothing anyState :=
  RunsWith.of_timers (u := s.advance.setSt (s.getV x)) rfl fun _ _ hst => Component.same_setSt hst s.advance (s.getV x)

end Machine

/-- Settles O40: `Fx07` is the advance and one write of `V[x]`, `Fx15` and `Fx18` are the advance and one write of a timer, and the
decrement comes after the write. -/
theorem timerTransfers : Obligations.TimerTransfers := by
  intro x s
  exact ⟨⟨resolve_wordXK_ldVxDt x, Machine.runs_ldVxDt x s⟩, ⟨resolve_wordXK_ldDtVx x, Machine.runsWith_ldDtVx x s⟩,
    resolve_wordXK_ldStVx x, Machine.runsWith_ldStVx x s⟩

end Sys2Proof
end

section
/-! PROOFS. Decoder against encoder (30_encoding.md R61 to R67): a word put together from its fields and the row that took it, the
unrecognized words, the round trips both ways, and the opcode map. -/

namespace Sys2Proof

/-! ### A word from the fields its row fixes -/

theorem wordA_of_family {w : Word} {f : Nibble} (hf : familyField w = f) : wordA f (addrField w) = w := hf ▸ wordA_fields w

theorem wordXK_of_family {w : Word} {f : Nibble} (hf : familyField w = f) : wordXK f (xField w) (kkField w) = w :=
  hf ▸ wordXK_fields w

theorem wordXK_of_subByte {w : Word} {f : Nibble} {kk : Byte} (hf : familyField w = f) (hkk : kkField w = kk) :
    wordXK f (xField w) kk = w := hkk ▸ wordXK_of_family hf

theorem wordXYN_of_family {w : Word} {f : Nibble} (hf : familyField w = f) :
    wordXYN f (xField w) (yField w) (nibbleField w) = w := hf ▸ wordXYN_fields w

theorem wordXYN_of_subNibble {w : Word} {f n : Nibble} (hf : familyField w = f) (hn : nibbleField w = n) :
    wordXYN f (xField w) (yField w) n = w := hn ▸ wordXYN_of_family hf

/-! ### The unrecognized words -/

/-- R67: the sub-operation nibbles of family 8 that a row takes. -/
def usedNibbles8 : List Nibble := [0x0#4, 0x1#4, 0x2#4, 0x3#4, 0x4#4, 0x5#4, 0x6#4, 0x7#4, 0xE#4]

theorem mem_unusedNibble8_iff : ∀ n : Nibble, n ∈ unusedNibble8 ↔ n ∉ usedNibbles8 := by decide

/-- R67: a word is unrecognized iff its family has sub-operations and it has none of them. -/
theorem unrecognizedWord_iff (w : Word) :
    unrecognizedWord w = true ↔
      (familyField w = 0x8#4 ∧ nibbleField w ∉ usedNibbles8)
        ∨ (familyField w = 0xE#4 ∧ kkField w ∉ usedBytesE)
        ∨ (familyField w = 0xF#4 ∧ kkField w ∉ usedBytesF) := by
  rw [← mem_unusedNibble8_iff]
  simp [unrecognizedWord, familyField, nibbleField, kkField, or_assoc]

theorem ne_exactMatch_of_unrecognizedWord {w : Word} (h : unrecognizedWord w = true) : w ≠ 0x00E0#16 ∧ w ≠ 0x00EE#16 := by
  constructor <;> (rintro rfl; revert h; decide)

theorem resolve_of_unrecognizedWord {w : Word} (h : unrecognizedWord w = true) : resolve w = .unrecognized w := by
  have hexact := ne_exactMatch_of_unrecognizedWord h
  rcases (unrecognizedWord_iff w).1 h with ⟨hf, hsub⟩ | ⟨hf, hsub⟩ | ⟨hf, hsub⟩ <;>
    simp only [usedNibbles8, usedBytesE, usedBytesF, List.mem_cons, List.not_mem_nil, or_false, not_or] at hsub
  · simp [resolve, resolveFamily8, hf, hexact, hsub]
  · simp [resolve, resolveFamilyE, hf, hexact, hsub]
  · simp [resolve, resolveFamilyF, hf, hexact, hsub]

/-! ### From the word to the instruction and back -/

/-- The instruction is one that some word encodes, and `w` is that word. -/
structure Instr.IsOfWord (i : Instr) (w : Word) : Prop where
  wellFormed : i.wellFormed = true
  encode : Sys2Proof.encode i = w

theorem Instr.IsOfWord.ite {c : Prop} [Decidable c] {i j : Instr} {w : Word} (hi : c → i.IsOfWord w) (hj : ¬ c → j.IsOfWord w) :
    (if c then i else j).IsOfWord w := by
  split
  · exact hi ‹c›
  · exact hj ‹¬ c›

theorem resolveFamily8_isOfWord {w : Word} (hf : familyField w = 0x8#4) : (resolveFamily8 w).IsOfWord w := by
  unfold resolveFamily8
  refine .ite (fun h0 => ⟨rfl, wordXYN_of_subNibble hf h0⟩) fun h0 =>
    .ite (fun h1 => ⟨rfl, wordXYN_of_subNibble hf h1⟩) fun h1 =>
    .ite (fun h2 => ⟨rfl, wordXYN_of_subNibble hf h2⟩) fun h2 =>
    .ite (fun h3 => ⟨rfl, wordXYN_of_subNibble hf h3⟩) fun h3 =>
    .ite (fun h4 => ⟨rfl, wordXYN_of_subNibble hf h4⟩) fun h4 =>
    .ite (fun h5 => ⟨rfl, wordXYN_of_subNibble hf h5⟩) fun h5 =>
    .ite (fun h6 => ⟨rfl, wordXYN_of_subNibble hf h6⟩) fun h6 =>
    .ite (fun h7 => ⟨rfl, wordXYN_of_subNibble hf h7⟩) fun h7 =>
    .ite (fun hE => ⟨rfl, wordXYN_of_subNibble hf hE⟩) fun hE =>
    ⟨(unrecognizedWord_iff w).2 (.inl ⟨hf, ?_⟩), rfl⟩
  simp [usedNibbles8, *]

theorem resolveFamilyE_isOfWord {w : Word} (hf : familyField w = 0xE#4) : (resolveFamilyE w).IsOfWord w := by
  unfold resolveFamilyE
  refine .ite (fun h9E => ⟨rfl, wordXK_of_subByte hf h9E⟩) fun h9E =>
    .ite (fun hA1 => ⟨rfl, wordXK_of_subByte hf hA1⟩) fun hA1 =>
    ⟨(unrecognizedWord_iff w).2 (.inr (.inl ⟨hf, ?_⟩)), rfl⟩
  simp [usedBytesE, *]

theorem resolveFamilyF_isOfWord {w : Word} (hf : familyField w = 0xF#4) : (resolveFamilyF w).IsOfWord w := by
  unfold resolveFamilyF
  refine .ite (fun h07 => ⟨rfl, wordXK_of_subByte hf h07⟩) fun h07 =>
    .ite (fun h0A => ⟨rfl, wordXK_of_subByte hf h0A⟩) fun h0A =>
    .ite (fun h15 => ⟨rfl, wordXK_of_subByte hf h15⟩) fun h15 =>
    .ite (fun h18 => ⟨rfl, wordXK_of_subByte hf h18⟩) fun h18 =>
    .ite (fun h1E => ⟨rfl, wordXK_of_subByte hf h1E⟩) fun h1E =>
    .ite (fun h29 => ⟨rfl, wordXK_of_subByte hf h29⟩) fun h29 =>
    .ite (fun h33 => ⟨rfl, wordXK_of_subByte hf h33⟩) fun h33 =>
    .ite (fun h55 => ⟨rfl, wordXK_of_subByte hf h55⟩) fun h55 =>
    .ite (fun h65 => ⟨rfl, wordXK_of_subByte hf h65⟩) fun h65 =>
    ⟨(unrecognizedWord_iff w).2 (.inr (.inr ⟨hf, ?_⟩)), rfl⟩
  simp [usedBytesF, *]

/-- R61: a family is a nibble, so one that is none of the first fifteen is the last. -/
theorem family_eq_F : ∀ f : Nibble,
    f ∉ [0x0#4, 0x1#4, 0x2#4, 0x3#4, 0x4#4, 0x5#4, 0x6#4, 0x7#4, 0x8#4, 0x9#4, 0xA#4, 0xB#4, 0xC#4, 0xD#4, 0xE#4] →
      f = 0xF#4 := by decide

/-- Along the branches of the resolver, the word is put together again from the fields the branch has fixed or kept. -/
theorem resolve_isOfWord (w : Word) : (resolve w).IsOfWord w := by
  unfold resolve
  refine .ite (fun hcls => ⟨rfl, hcls.symm⟩) fun hcls =>
    .ite (fun hret => ⟨rfl, hret.symm⟩) fun hret =>
    .ite (fun h0 => ⟨sysOperandOk_of_family0 h0 hcls hret, wordA_of_family h0⟩) fun h0 =>
    .ite (fun h1 => ⟨rfl, wordA_of_family h1⟩) fun h1 =>
    .ite (fun h2 => ⟨rfl, wordA_of_family h2⟩) fun h2 =>
    .ite (fun h3 => ⟨rfl, wordXK_of_family h3⟩) fun h3 =>
    .ite (fun h4 => ⟨rfl, wordXK_of_family h4⟩) fun h4 =>
    .ite (fun h5 => ⟨rfl, wordXYN_of_family h5⟩) fun h5 =>
    .ite (fun h6 => ⟨rfl, wordXK_of_family h6⟩) fun h6 =>
    .ite (fun h7 => ⟨rfl, wordXK_of_family h7⟩) fun h7 =>
    .ite (fun h8 => resolveFamily8_isOfWord h8) fun h8 =>
    .ite (fun h9 => ⟨rfl, wordXYN_of_family h9⟩) fun h9 =>
    .ite (fun hA => ⟨rfl, wordA_of_family hA⟩) fun hA =>
    .ite (fun hB => ⟨rfl, wordA_of_family hB⟩) fun hB =>
    .ite (fun hC => ⟨rfl, wordXK_of_family hC⟩) fun hC =>
    .ite (fun hD => ⟨rfl, wordXYN_of_family hD⟩) fun hD =>
    .ite (fun hE => resolveFamilyE_isOfWord hE) fun hE =>
    resolveFamilyF_isOfWord (family_eq_F _ ?_)
  simp [*]

/-- Settles O2: the instruction of every branch of the resolver is one that some word encodes, and that word is the resolved one.
-/
theorem encodeOfDecodeIsTheWord : Obligations.EncodeOfDecodeIsTheWord := fun w =>
  ⟨(resolve_isOfWord w).wellFormed, (resolve_isOfWord w).encode⟩

theorem wordA_ne_exactMatch_of_sysOperandOk {nnn : Addr} (h : sysOperandOk nnn = true) :
    wordA 0x0#4 nnn ≠ 0x00E0#16 ∧ wordA 0x0#4 nnn ≠ 0x00EE#16 := by
  simp only [sysOperandOk, Bool.and_eq_true, bne_iff_ne] at h
  have haddr := addrField_wordA 0x0#4 nnn
  exact ⟨fun e => h.1 (haddr.symm.trans (congrArg addrField e)), fun e => h.2 (haddr.symm.trans (congrArg addrField e))⟩

/-- R65: a word of family E is left to the resolver of its low byte. -/
theorem resolve_wordXK_familyE (x : RegIdx) (kk : Byte) :
    resolve (wordXK 0xE#4 x kk) = resolveFamilyE (wordXK 0xE#4 x kk) := by
  simp [resolve, wordXK_ne_exactMatch]

/-- R65, R66: the word of a well-formed instruction resolves to that instruction; only the two rows that take what is left of a
family need the instruction's well-formedness. -/
theorem resolve_encode {i : Instr} (h : i.wellFormed = true) : resolve (encode i) = i := by
  cases i
  case cls => rfl
  case ret => rfl
  case sys nnn => simp [encode, resolve, wordA_ne_exactMatch_of_sysOperandOk h]
  case unrecognized w => exact resolve_of_unrecognizedWord h
  case ldReg | orReg | andReg | xorReg | addReg | sub | shr | subr | shl =>
    simp [encode, resolve_wordXYN_family8, resolveFamily8]
  case skp | sknp => simp [encode, resolve_wordXK_familyE, resolveFamilyE]
  case ldVxDt | ldVxK | ldDtVx | ldStVx | addI | ldF | bcd | stm | ldm =>
    simp [encode, resolve_wordXK_familyF, resolveFamilyF]
  all_goals simp [encode, resolve, wordA_ne_exactMatch, wordXK_ne_exactMatch, wordXYN_ne_exactMatch]

/-- Settles O1: the decoder joins the two bytes to the encoding again, which resolves to the instruction. -/
theorem decodeOfEncodeIsTheInstruction : Obligations.DecodeOfEncodeIsTheInstruction := by
  intro i pc rest h
  have hresolve : ∀ pc, resolve (decode (highByte (encode i)) (lowByte (encode i)) pc).word = i := fun pc =>
    (congrArg resolve (joinBytes_high_low (encode i))).trans (resolve_encode h)
  exact ⟨hresolve pc, congrArg (fun j => Except.ok (j, rest)) (hresolve 0#16)⟩

theorem resolve_eq_unrecognized_iff (w : Word) : resolve w = .unrecognized w ↔ unrecognizedWord w = true := by
  refine ⟨fun h => ?_, resolve_of_unrecognizedWord⟩
  have hwf := (resolve_isOfWord w).wellFormed
  rwa [h] at hwf

/-- Settles O5: the words that resolve to the catch-all are the well-formed operands of its row, read in the integers. -/
theorem unrecognizedWordsAreTheListed : Obligations.UnrecognizedWordsAreTheListed := by
  intro w
  rw [resolve_eq_unrecognized_iff, unrecognizedWord_iff]
  rw [← mem_unusedNibble8_iff]
  simp [unusedNibble8, usedBytesE, usedBytesF, ← BitVec.toNat_inj, familyField_toNat, nibbleField_toNat, kkField_toNat]

/-- Settles O6: the resolver computes on each of the fourteen words. -/
theorem sampleWordsDecode : Obligations.SampleWordsDecode := by
  unfold Obligations.SampleWordsDecode
  decide

/-! ### The opcode map -/

/-- R66: two rows fit a common word only if their patterns agree on the bits that both of them fix. -/
theorem OpcodeRow.patterns_agree_of_fits {p q : OpcodeRow} {w : Word} (hp : p.fits w = true) (hq : q.fits w = true) :
    p.pattern &&& q.mask = q.pattern &&& p.mask := by
  simp only [OpcodeRow.fits, beq_iff_eq] at hp hq
  rw [← hp, ← hq, BitVec.and_assoc, BitVec.and_assoc, BitVec.and_comm p.mask]

/-- R66, R67: apart from the catch-all, the only row whose fixed bits agree with those of another row is `SYS`. -/
theorem opcodeTable_overlaps : ∀ p ∈ opcodeTable, ∀ q ∈ opcodeTable, p.pattern &&& q.mask = q.pattern &&& p.mask → p ≠ q →
    p.mnemonic = "SYS" ∨ q.mnemonic = "SYS" ∨ p.mnemonic = "UNRECOGNIZED" ∨ q.mnemonic = "UNRECOGNIZED" := by decide

theorem and_familyMask (w : Word) : w &&& 0xF000#16 = wordA (familyField w) 0#12 := by
  apply BitVec.eq_of_getLsbD_eq
  intro k hk
  interval_cases k <;> simp [familyField, wordA]

theorem and_subNibbleMask (w : Word) : w &&& 0xF00F#16 = wordXYN (familyField w) 0#4 0#4 (nibbleField w) := by
  apply BitVec.eq_of_getLsbD_eq
  intro k hk
  interval_cases k <;> simp [familyField, nibbleField, wordXYN]

theorem and_subByteMask (w : Word) : w &&& 0xF0FF#16 = wordXK (familyField w) 0#4 (kkField w) := by
  apply BitVec.eq_of_getLsbD_eq
  intro k hk
  interval_cases k <;> simp [familyField, kkField, wordXK]

/-- R66: what a row's mask keeps of a word are some of its fields, so the row fits exactly the words that have these fields as its
pattern has them. -/
theorem OpcodeRow.fits_iff {α : Type} {mask : Word} {fields : Word → α} {word : α → Word} (hfields : ∀ a, fields (word a) = a)
    (hmask : ∀ w, w &&& mask = word (fields w)) (mn : String) {p : Word} (hp : p &&& mask = p) (w : Word) :
    OpcodeRow.fits ⟨mn, mask, p⟩ w = true ↔ fields w = fields p := by
  have hw : OpcodeRow.fits ⟨mn, mask, p⟩ w = true ↔ w &&& mask = p := beq_iff_eq
  rw [hw]
  constructor
  · intro h
    rw [← h, hmask, hfields]
  · intro h
    rw [hmask, h, ← hmask, hp]

theorem OpcodeRow.fits_exact (mn : String) (p w : Word) : OpcodeRow.fits ⟨mn, 0xFFFF#16, p⟩ w = true ↔ w = p :=
  OpcodeRow.fits_iff (fields := id) (word := id) (fun _ => rfl) (fun _ => BitVec.and_allOnes) mn BitVec.and_allOnes w

theorem OpcodeRow.fits_family (mn : String) (w : Word) {p : Word} (hp : p &&& 0xF000#16 = p) :
    OpcodeRow.fits ⟨mn, 0xF000#16, p⟩ w = true ↔ familyField w = p.extractLsb' 12 4 :=
  OpcodeRow.fits_iff (fun f => familyField_wordA f 0#12) and_familyMask mn hp w

theorem OpcodeRow.fits_subNibble (mn : String) (w : Word) {p : Word} (hp : p &&& 0xF00F#16 = p) :
    OpcodeRow.fits ⟨mn, 0xF00F#16, p⟩ w = true ↔ familyField w = p.extractLsb' 12 4 ∧ nibbleField w = p.extractLsb' 0 4 := by
  rw [← Prod.mk.injEq]
  exact OpcodeRow.fits_iff (fields := fun w => (familyField w, nibbleField w)) (word := fun a => wordXYN a.1 0#4 0#4 a.2)
    (fun a => by simp) and_subNibbleMask mn hp w

theorem OpcodeRow.fits_subByte (mn : String) (w : Word) {p : Word} (hp : p &&& 0xF0FF#16 = p) :
    OpcodeRow.fits ⟨mn, 0xF0FF#16, p⟩ w = true ↔ familyField w = p.extractLsb' 12 4 ∧ kkField w = p.extractLsb' 0 8 := by
  rw [← Prod.mk.injEq]
  exact OpcodeRow.fits_iff (fields := fun w => (familyField w, kkField w)) (word := fun a => wordXK a.1 0#4 a.2)
    (fun a => by simp) and_subByteMask mn hp w

theorem OpcodeRow.fits_catchAll (mn : String) (w : Word) : OpcodeRow.fits ⟨mn, 0x0000#16, 0x0000#16⟩ w = true := by
  rw [OpcodeRow.fits, BitVec.and_zero, beq_self_eq_true]

/-- R66: the first row that the word of a well-formed instruction fits is the instruction's own. -/
theorem rowOf_encode {i : Instr} (h : i.wellFormed = true) : (rowOf (encode i)).map (·.mnemonic) = some i.mnemonic := by
  unfold rowOf opcodeTable opcodeRowsByFamily opcodeRowsBySubKey
  cases i
  case sys nnn =>
    simp [OpcodeRow.fits_exact, OpcodeRow.fits_family, encode, wordA_ne_exactMatch_of_sysOperandOk h, Instr.mnemonic]
  case unrecognized w =>
    have hexact := ne_exactMatch_of_unrecognizedWord h
    rcases (unrecognizedWord_iff w).1 h with ⟨hf, hsub⟩ | ⟨hf, hsub⟩ | ⟨hf, hsub⟩ <;>
      simp only [usedNibbles8, usedBytesE, usedBytesF, List.mem_cons, List.not_mem_nil, or_false, not_or] at hsub <;>
      simp [OpcodeRow.fits_exact, OpcodeRow.fits_family, OpcodeRow.fits_subNibble, OpcodeRow.fits_subByte,
        OpcodeRow.fits_catchAll, encode, hexact, hf, hsub, Instr.mnemonic]
  all_goals simp [OpcodeRow.fits_exact, OpcodeRow.fits_family, OpcodeRow.fits_subNibble, OpcodeRow.fits_subByte, encode,
    wordXYN_ne_exactMatch, wordXK_ne_exactMatch, wordA_ne_exactMatch, Instr.mnemonic]

/-- Settles O3: a word is the encoding of the instruction it resolves to, whose row is the first to fit; and rows that fit a
common word agree on their common fixed bits, which the table allows next to `SYS` and the catch-all only. -/
theorem resolverFollowsTheOpcodeMap : Obligations.ResolverFollowsTheOpcodeMap := by
  refine ⟨fun w => ?_, fun w p hp q hq hpw hqw hne => ?_⟩
  · have hrow := rowOf_encode (resolve_isOfWord w).wellFormed
    rwa [(resolve_isOfWord w).encode] at hrow
  · exact opcodeTable_overlaps p hp q hq (OpcodeRow.patterns_agree_of_fits hpw hqw) hne

end Sys2Proof
end

section
/-! PROOFS. The frame of every update of the state, as one lemma per update: which component it may change. -/

namespace Sys2Proof.Machine

/-! ### One update -/

theorem Component.same_setFlag {c : Component} (hf : c ≠ .reg 0xF#4) (s : State) (flag : Bool) : c.same s (s.setFlag flag) :=
  Component.same_setV hf s _

theorem Component.same_setKw {c : Component} (hkw : c ≠ .kw) (s : State) (hold : Option RegIdx) : c.same s (s.setKw hold) := by
  cases c
  case kw => exact absurd rfl hkw
  all_goals rfl

theorem Component.same_setInput {c : Component} (hin : c ≠ .input) (s : State) (report : Option Key) :
    c.same s (s.setInput report) := by
  cases c
  case input => exact absurd rfl hin
  all_goals rfl

theorem Component.same_setInputQueue {c : Component} (hq : c ≠ .inputQueue) (s : State) (q : List (Option Key)) :
    c.same s (s.setInputQueue q) := by
  cases c
  case inputQueue => exact absurd rfl hq
  all_goals rfl

theorem Component.same_setTurns {c : Component} (ht : c ≠ .turns) (s : State) (ts : List Turn) : c.same s (s.setTurns ts) := by
  cases c
  case turns => exact absurd rfl ht
  all_goals rfl

theorem Component.same_setEvents {c : Component} (he : c ≠ .events) (s : State) (n : Nat) : c.same s (s.setEvents n) := by
  cases c
  case events => exact absurd rfl he
  all_goals rfl

theorem Component.same_setMode {c : Component} (hm : c ≠ .mode) (s : State) (m : Mode) : c.same s (s.setMode m) := by
  cases c
  case mode => exact absurd rfl hm
  all_goals rfl

theorem Component.same_setFr {c : Component} (hfr : c ≠ .fr) (s : State) (r : FaultRecord) : c.same s (s.setFr r) := by
  cases c
  case fr => exact absurd rfl hfr
  all_goals rfl

theorem Component.same_setFb {c : Component} (hpx : ∀ r q, c ≠ .pixel r q) (s : State) (fb : Bitmap) : c.same s (s.setFb fb) := by
  cases c
  case pixel r q => exact absurd rfl (hpx r q)
  all_goals rfl

theorem Component.same_emit {c : Component} (ht : c ≠ .trace) (s : State) (e : Output) : c.same s (s.emit e) := by
  cases c
  case trace => exact absurd rfl ht
  all_goals rfl

theorem Component.same_consumeDraw {c : Component} (hd : c ≠ .draws) (s : State) : c.same s s.consumeDraw := by
  cases c
  case draws => exact absurd rfl hd
  all_goals rfl

theorem State.slot_push (s : State) (room : s.sp.val < 16) (k : Fin 16) :
    (s.push room).slot k = if k.val = s.sp.val then s.pc else s.slot k := by
  simp [State.slot, Vector.getElem_set, eq_comm]

theorem Component.same_push {c : Component} (hsp : c ≠ .sp) {s : State} (hslot : ∀ k : Fin 16, k.val = s.sp.val → c ≠ .slot k)
    (room : s.sp.val < 16) : c.same s (s.push room) := by
  cases c
  case sp => exact absurd rfl hsp
  case slot k => exact (State.slot_push s room k).trans (if_neg fun e => hslot k e rfl)
  all_goals rfl

theorem Component.same_pop {c : Component} (hsp : c ≠ .sp) (hpc : c ≠ .pc) (s : State) (occupied : 0 < s.sp.val) :
    c.same s (s.pop occupied) := by
  cases c
  case sp => exact absurd rfl hsp
  case pc => exact absurd rfl hpc
  all_goals rfl

theorem Component.same_writeBytes {c : Component} (s : State) (a : Nat) (bs : List Byte)
    (hb : ∀ k < bs.length, c ≠ .byte (a + k)) : c.same s (s.writeBytes a bs) := by
  cases c
  case byte k =>
    refine (State.readByte_writeBytes bs s a k).trans (dif_neg fun hk => hb (k - a) (by omega) ?_)
    rw [Nat.add_sub_cancel' hk.1]
  all_goals simp [Component.same]

theorem Component.same_loadRegisters {c : Component} (s : State) (bs : List Byte) (hlen : bs.length ≤ 16)
    (hr : ∀ x : RegIdx, x.toNat < bs.length → c ≠ .reg x) : c.same s (s.loadRegisters 0 bs) := by
  cases c
  case reg x =>
    exact (State.getV_loadRegisters bs s 0 (by omega) x).trans (dif_neg fun hx => hr x (by omega) rfl)
  all_goals simp [Component.same]

end Sys2Proof.Machine
end

section
/-! PROOFS. What the execution of an instruction may change, said once for all 36 classes, and what follows for the frames of the
statements: `Instr.touches` lists for every class the components its dispatch writes. -/

namespace Sys2Proof.Machine

/-- The components that the dispatch of an instruction may change, `PC` and the timers apart. -/
def touches (i : Instr) (s : State) (c : Component) : Prop :=
  match i with
  | .cls => c = .trace ∨ ∃ r q, c = .pixel r q
  | .sys _ | .unrecognized _ => c = .trace
  | .ret => c = .sp
  | .call _ => c = .sp ∨ ∃ k : Fin 16, k.val = s.sp.val ∧ c = .slot k
  | .ldImm x _ | .addImm x _ | .ldReg x _ | .orReg x _ | .andReg x _ | .xorReg x _ | .ldVxDt x => c = .reg x
  | .addReg x _ | .sub x _ | .shr x _ | .shl x _ => c = .reg x ∨ c = .reg 0xF#4
  | .subr _ y => c = .reg y ∨ c = .reg 0xF#4
  | .rnd x _ => c = .reg x ∨ c = .draws
  | .ldI _ | .addI _ | .ldF _ => c = .i
  | .drw _ _ _ => c = .reg 0xF#4 ∨ c = .trace ∨ ∃ r q, c = .pixel r q
  | .ldVxK _ => c = .kw
  | .bcd _ => ∃ k < 3, c = .byte (elementAddress s k)
  | .stm x => ∃ k ≤ x.toNat, c = .byte (elementAddress s k)
  | .ldm x => ∃ k : RegIdx, k.toNat ≤ x.toNat ∧ c = .reg k
  | .jp _ | .jpV0 _ | .seImm _ _ | .sneImm _ _ | .seReg _ _ _ | .sneReg _ _ _ | .skp _ | .sknp _ | .ldDtVx _ | .ldStVx _ => False

/-! ### The class conditions, for a dispatch that does not fault -/

theorem faultCause_ret_none {s : State} : faultCause .ret s = none ↔ s.sp.val ≠ 0 := by simp [faultCause]

theorem faultCause_call_none {nnn : Addr} {s : State} : faultCause (.call nnn) s = none ↔ s.sp.val ≠ 16 := by simp [faultCause]

theorem faultCause_drw_none {x y : RegIdx} {n : Nibble} {s : State} :
    faultCause (.drw x y n) s = none ↔ ¬ (1 ≤ n.toNat ∧ s.i.toNat + n.toNat - 1 > 0xFFF) := by simp [faultCause]

theorem faultCause_bcd_none {x : RegIdx} {s : State} : faultCause (.bcd x) s = none ↔ ¬ s.i.toNat + 2 > 0xFFF := by
  simp [faultCause]

theorem faultCause_stm_none {x : RegIdx} {s : State} : faultCause (.stm x) s = none ↔ ¬ s.i.toNat + x.toNat > 0xFFF := by
  simp [faultCause]

theorem faultCause_ldm_none {x : RegIdx} {s : State} : faultCause (.ldm x) s = none ↔ ¬ s.i.toNat + x.toNat > 0xFFF := by
  simp [faultCause]

/-! ### Frames -/

/-- A dispatch that does not fault changes, after the advance, only what its class touches, `PC` and the timers. -/
theorem dispatch_frame {i : Instr} {s : State} (h : faultCause i s = none) :
    ∃ u, exec i s = .next u.decrementTimers
      ∧ Unchanged (fun c => touches i s c ∨ c = .pc ∨ c = .dt ∨ c = .st) s.advance u := by
  cases i
  case cls =>
    exact ⟨_, rfl, fun c hc => (Component.same_emit (fun e => hc (.inl (.inl e))) ..).trans
      (Component.same_setFb (fun r q e => hc (.inl (.inr ⟨r, q, e⟩))) ..)⟩
  case sys | unrecognized => exact ⟨_, rfl, fun c hc => Component.same_emit (fun e => hc (.inl e)) ..⟩
  case ret =>
    exact ⟨_, exec_ret_pops (faultCause_ret_none.1 h), fun c hc =>
      Component.same_pop (fun e => hc (.inl e)) (fun e => hc (.inr (.inl e))) ..⟩
  case call nnn =>
    exact ⟨_, exec_call_pushes (faultCause_call_none.1 h), fun c hc =>
      (Component.same_push (s := s.advance) (fun e => hc (.inl (.inl e))) (fun k hk e => hc (.inl (.inr ⟨k, hk, e⟩))) _).trans
        (Component.same_setPc (fun e => hc (.inr (.inl e))) ..)⟩
  case ldImm | addImm | ldReg | orReg | andReg | xorReg | ldVxDt =>
    exact ⟨_, rfl, fun c hc => Component.same_setV (fun e => hc (.inl e)) ..⟩
  case addReg | sub | subr =>
    exact ⟨_, rfl, fun c hc => (Component.same_setV (fun e => hc (.inl (.inl e))) ..).trans
      (Component.same_setFlag (fun e => hc (.inl (.inr e))) ..)⟩
  case shr | shl =>
    exact ⟨_, rfl, fun c hc => (Component.same_setFlag (fun e => hc (.inl (.inr e))) ..).trans
      (Component.same_setV (fun e => hc (.inl (.inl e))) ..)⟩
  case rnd =>
    exact ⟨_, rfl, fun c hc => (Component.same_consumeDraw (fun e => hc (.inl (.inr e))) ..).trans
      (Component.same_setV (fun e => hc (.inl (.inl e))) ..)⟩
  case ldI | addI | ldF => exact ⟨_, rfl, fun c hc => Component.same_setI (fun e => hc (.inl e)) ..⟩
  case drw x y n =>
    exact ⟨_, exec_drw_draws (faultCause_drw_none.1 h), fun c hc =>
      ((Component.same_emit (fun e => hc (.inl (.inr (.inl e)))) ..).trans
        (Component.same_setFb (fun r q e => hc (.inl (.inr (.inr ⟨r, q, e⟩)))) ..)).trans
        (Component.same_setFlag (fun e => hc (.inl (.inl e))) ..)⟩
  case ldVxK => exact ⟨_, rfl, fun c hc => Component.same_setKw (fun e => hc (.inl e)) ..⟩
  case bcd x =>
    exact ⟨_, exec_bcd_stores (faultCause_bcd_none.1 h), fun c hc =>
      Component.same_writeBytes _ _ _ fun k hk e => hc (.inl ⟨k, hk, e⟩)⟩
  case stm x =>
    refine ⟨_, exec_stm_stores (faultCause_stm_none.1 h), fun c hc =>
      Component.same_writeBytes _ _ _ fun k hk e => hc (.inl ⟨k, ?_, e⟩)⟩
    rw [State.registersFrom_length] at hk
    exact Nat.le_of_lt_succ hk
  case ldm x =>
    refine ⟨_, exec_ldm_loads (faultCause_ldm_none.1 h), fun c hc =>
      Component.same_loadRegisters _ _ ?_ fun k hk e => hc (.inl ⟨k, ?_, e⟩)⟩
    · rw [State.readBytes_length]
      exact x.isLt
    · rw [State.readBytes_length] at hk
      exact Nat.le_of_lt_succ hk
  case jp | jpV0 => exact ⟨_, rfl, fun c hc => Component.same_setPc (fun e => hc (.inr (.inl e))) ..⟩
  case seImm | sneImm | seReg | sneReg | skp | sknp =>
    exact ⟨_, rfl, fun c hc => State.skipIf_eq s.advance _ ▸ Component.same_setPc (fun e => hc (.inr (.inl e))) ..⟩
  case ldDtVx => exact ⟨_, rfl, fun c hc => Component.same_setDt (fun e => hc (.inr (.inr (.inl e)))) ..⟩
  case ldStVx => exact ⟨_, rfl, fun c hc => Component.same_setSt (fun e => hc (.inr (.inr (.inr e)))) ..⟩

/-- The frame of a completed instruction. -/
theorem exec_frame {i : Instr} {s t : State} (h : faultCause i s = none) (hexec : exec i s = .next t) :
    Unchanged (fun c => touches i s c ∨ c = .pc ∨ c = .dt ∨ c = .st) s t := by
  obtain ⟨u, hu, hframe⟩ := dispatch_frame h
  obtain rfl := Host.Outcome.next.inj (hu.symm.trans hexec)
  intro c hc
  have hpc : c ≠ .pc := fun e => hc (.inr (.inl e))
  have hdt : c ≠ .dt := fun e => hc (.inr (.inr (.inl e)))
  have hst : c ≠ .st := fun e => hc (.inr (.inr (.inr e)))
  exact ((Component.same_advance hpc s).trans (hframe c hc)).trans (Component.same_decrementTimers hdt hst u)

/-- R203, R88: the frame of the entry to a fatal fault. -/
theorem fault_frame (s : State) (r : FaultRecord) :
    Unchanged (fun c => c = .pc ∨ c = .mode ∨ c = .fr) s ((s.advance.setFr r).setMode .faulted) := by
  intro c hc
  have hpc : c ≠ .pc := fun e => hc (.inl e)
  have hmode : c ≠ .mode := fun e => hc (.inr (.inl e))
  have hfr : c ≠ .fr := fun e => hc (.inr (.inr e))
  exact ((Component.same_advance hpc s).trans (Component.same_setFr hfr ..)).trans (Component.same_setMode hmode ..)

/-- A component that an instruction does not touch and that is none of those common to every instruction is as before, whether the
instruction completes or faults. -/
theorem exec_same {i : Instr} {s t : State} (hexec : exec i s = .next t) {c : Component} (hc : ¬ touches i s c)
    (hcommon : c ∉ [.pc, .dt, .st, .mode, .fr]) : c.same s t := by
  simp only [List.mem_cons, List.not_mem_nil, or_false, not_or] at hcommon
  obtain ⟨hpc, hdt, hst, hmode, hfr⟩ := hcommon
  cases hcause : faultCause i s with
  | none => exact exec_frame hcause hexec c (by simp [hc, hpc, hdt, hst])
  | some cause =>
    rw [exec_of_faultCause hcause] at hexec
    obtain rfl := Host.Outcome.next.inj hexec
    exact fault_frame s _ c (by simp [hpc, hmode, hfr])

/-- An instruction whose dispatch ends in `u`, the timers as it found them, runs to its end there with the frame of its class. -/
theorem Runs.of_exec {i : Instr} {s u : State} {target : Word} {touched : Component → Prop} {post : State → Prop}
    (hexec : exec i s = .next u.decrementTimers) (hcause : faultCause i s = none) (hpc : u.pc = target) (hdt : u.dt = s.dt)
    (hst : u.st = s.st) (htouched : ∀ c, touches i s c → touched c) (hpost : post u.decrementTimers) :
    Runs i s target touched post := by
  refine ⟨u.decrementTimers, hexec, hpc, hdt ▸ tick_toNat u.dt, hst ▸ tick_toNat u.st, fun c hc => ?_, hpost⟩
  exact exec_frame hcause hexec c fun htc => hc (htc.imp_left (htouched c))

end Sys2Proof.Machine
end

section
/-! PROOFS. The scheduler (48_scheduler.md): the frame of every turn that is not instruction-ready, served or not, and the
statements about single turns. -/

namespace Sys2Proof

open Machine

namespace Machine

/-! ### Turns -/

theorem Unchanged.mono {p q : Component → Prop} {s t : State} (h : Unchanged p s t) (hpq : ∀ c, p c → q c) : Unchanged q s t :=
  fun c hc => h c fun hp => hc (hpq c hp)

theorem Unchanged.trans {p : Component → Prop} {s t u : State} (hst : Unchanged p s t) (htu : Unchanged p t u) :
    Unchanged p s u :=
  fun c hc => (hst c hc).trans (htu c hc)

theorem Unchanged.refl (p : Component → Prop) (s : State) : Unchanged p s s := fun c _ => by cases c <;> rfl

theorem dropTurn_frame (s : State) : Unchanged (fun c => c = .turns ∨ c = .events) s s.dropTurn := fun _ hc =>
  (Component.same_setTurns (fun e => hc (.inl e)) ..).trans (Component.same_setEvents (fun e => hc (.inr e)) ..)

/-- The frame of a step that serves a turn whose own frame is known. -/
theorem step_frame {p : Component → Prop} {s t : State} (h : Unchanged p s.dropTurn t) :
    Unchanged (fun c => c = .turns ∨ c = .events ∨ p c) s t :=
  ((dropTurn_frame s).mono fun _ hc => hc.imp_right .inl).trans (h.mono fun _ hc => .inr (.inr hc))

/-! ### The handlers -/

theorem handleInput_none {s : State} (hkw : s.kw = none) (report : Option Key) : handleInput report s = s.setInput report := by
  simp [handleInput, hkw]

theorem handleInput_release (s : State) : handleInput none s = s.setInput none := by
  cases hkw : s.kw with
  | none => exact handleInput_none hkw none
  | some x => simp [handleInput, hkw]

theorem handleInput_press {s : State} {x : RegIdx} (hkw : s.kw = some x) (k : Key) :
    handleInput (some k) s = ((s.setInput (some k)).setV x (k.zeroExtend 8)).setKw none := by
  simp [handleInput, hkw]

/-- R170, R172: an input event changes `input` and, where it completes a key hold, the latch and the register held for. -/
theorem handleInput_frame (report : Option Key) (s : State) :
    Unchanged (fun c => c = .input ∨ c = .kw ∨ ∃ x, s.kw = some x ∧ c = .reg x) s (handleInput report s) := by
  have hset : Unchanged (fun c => c = .input ∨ c = .kw ∨ ∃ x, s.kw = some x ∧ c = .reg x) s (s.setInput report) :=
    fun c hc => Component.same_setInput (fun e => hc (.inl e)) s report
  cases hkw : s.kw with
  | none => rwa [handleInput_none hkw, ← hkw]
  | some x =>
    cases report with
    | none => rwa [handleInput_release, ← hkw]
    | some k =>
      rw [handleInput_press hkw, ← hkw]
      exact hset.trans fun c hc => (Component.same_setV (fun e => hc (.inr (.inr ⟨x, hkw, e⟩))) ..).trans
        (Component.same_setKw (fun e => hc (.inr (.inl e))) ..)

/-- The components that serving a turn other than instruction-ready may change. -/
def touchedByEvent (s : State) (c : Component) : Prop :=
  c = .inputQueue ∨ c = .input ∨ c = .kw ∨ c = .mode ∨ c = .trace ∨ ∃ x, s.kw = some x ∧ c = .reg x

/-- R167: serving a turn other than instruction-ready leaves the program's own state alone. -/
theorem serve_frame {turn : Turn} {s t : State} (hturn : turn ≠ .instrReady) (h : serve turn s = .next t) :
    Unchanged (touchedByEvent s) s t := by
  rcases serve_cases h with ⟨e, -⟩ | ⟨e, -⟩ | ⟨e, -⟩ | ⟨-, rfl⟩ | ⟨-, -, rfl⟩ | ⟨report, rest, -, -, rfl⟩ | ⟨-, rfl⟩ |
    ⟨report, -, rfl⟩
  · exact absurd e hturn
  · exact absurd e hturn
  · exact absurd e hturn
  · exact fun c hc => Component.same_emit (fun e => hc (by simp [touchedByEvent, e])) ..
  · exact Unchanged.refl _ _
  · have hqueue : Unchanged (touchedByEvent s) s (s.setInputQueue rest) := fun c hc =>
      Component.same_setInputQueue (fun e => hc (.inl e)) ..
    exact hqueue.trans ((handleInput_frame report (s.setInputQueue rest)).mono fun c hc => by
      unfold touchedByEvent
      tauto)
  · exact fun c hc => Component.same_setMode (fun e => hc (by simp [touchedByEvent, e])) ..
  · exact fun c hc => Component.same_setInputQueue (fun e => hc (.inl e)) ..

end Machine

/-- Settles O49: without an instruction-ready turn the step is a rest or an event, and neither touches the program's state. -/
theorem eventsNeverRedirectTheProgram : Obligations.EventsNeverRedirectTheProgram := by
  intro s t hstep hturn
  obtain ⟨-, ⟨-, rfl⟩ | ⟨turn, hnext, hserve⟩⟩ := step_cases hstep
  · exact (dropTurn_frame s).mono fun c hc => by tauto
  · exact (step_frame (serve_frame (fun e => hturn (e ▸ hnext)) hserve)).mono fun c hc => hc

end Sys2Proof
end

section
/-! PROOFS. Rules about every instruction: when it faults (R88, R200, R203), the timers (R85, R87), and what instructions of a
class leave alone (R11, R14, R15). -/

namespace Sys2Proof

open Machine

/-- Settles O10: an instruction that meets its class's condition takes the fault, one that does not completes. -/
theorem executionFaultsExactlyOnItsCondition : Obligations.ExecutionFaultsExactlyOnItsCondition := by
  refine fun i s => ⟨fun cause hcause => ?_, fun hcause => ?_⟩
  · exact ⟨_, exec_of_faultCause hcause, rfl, rfl, rfl, fault_frame s _⟩
  · obtain ⟨u, hu, hd⟩ := exec_of_no_faultCause hcause
    exact ⟨_, hu, hd.mode, hd.fr⟩

namespace Machine

/-! ### Timers -/

/-- R85, R87: a completed instruction leaves each timer one below its value at the end of the dispatch. -/
theorem exec_ticks {i : Instr} {s : State} (hcause : faultCause i s = none) :
    ∃ t, exec i s = .next t ∧ t.dt.toNat = (delayBeforeTick i s).toNat - 1 ∧ t.st.toNat = (soundBeforeTick i s).toNat - 1 := by
  obtain ⟨u, hu, hd⟩ := exec_of_no_faultCause hcause
  exact ⟨_, hu, hd.dt ▸ tick_toNat u.dt, hd.st ▸ tick_toNat u.st⟩

theorem delayBeforeTick_of_ne {i : Instr} (hi : ∀ x, i ≠ .ldDtVx x) (s : State) : delayBeforeTick i s = s.dt := by
  cases i
  case ldDtVx x => exact absurd rfl (hi x)
  all_goals rfl

/-- R85: no turn but an instruction-ready one moves a timer. -/
theorem serve_timers {turn : Turn} (hturn : turn ≠ .instrReady) (s : State) :
    ∃ t, serve turn s = .next t ∧ t.dt = s.dt ∧ t.st = s.st := by
  obtain ⟨t, ht⟩ := serve_next turn s
  have hframe := serve_frame hturn ht
  exact ⟨t, ht, hframe .dt (by simp [touchedByEvent]), hframe .st (by simp [touchedByEvent])⟩

/-- No instruction leaves the mode `Faulted`, so a run that has faulted ends faulted. -/
theorem execAll_faulted (is : List Instr) {s t : State} (hrun : execAll is s = .next t) (hs : s.mode = .faulted) :
    t.mode = .faulted := by
  induction is generalizing s with
  | nil => exact Host.Outcome.next.inj hrun ▸ hs
  | cons i is ih =>
    obtain ⟨u, hu⟩ := exec_next i s
    simp only [execAll, hu] at hrun
    refine ih hrun ?_
    cases hcause : faultCause i s with
    | some cause =>
      rw [exec_of_faultCause hcause] at hu
      exact Host.Outcome.next.inj hu ▸ rfl
    | none =>
      obtain ⟨v, hv, hd⟩ := exec_of_no_faultCause hcause
      exact Host.Outcome.next.inj (hv.symm.trans hu) ▸ hd.mode.trans hs

/-- R85: a run of instructions that all complete and do not load `DT` takes one from it for each of them, down to zero. -/
theorem execAll_delay (is : List Instr) {s t : State} (hrun : execAll is s = .next t) (ht : t.mode ≠ .faulted)
    (hload : ∀ x, .ldDtVx x ∉ is) : t.dt.toNat = s.dt.toNat - min s.dt.toNat is.length := by
  induction is generalizing s with
  | nil => exact Host.Outcome.next.inj hrun ▸ (by simp)
  | cons i is ih =>
    have hcause : faultCause i s = none := by
      cases hcause : faultCause i s with
      | none => rfl
      | some cause =>
        simp only [execAll, exec_of_faultCause hcause] at hrun
        exact absurd (execAll_faulted is hrun rfl) ht
    obtain ⟨u, hu, hdt, -⟩ := exec_ticks hcause
    simp only [execAll, hu] at hrun
    rw [delayBeforeTick_of_ne fun x e => hload x (e ▸ List.mem_cons_self)] at hdt
    rw [ih hrun fun x hx => hload x (List.mem_cons_of_mem i hx), hdt, List.length_cons]
    omega

end Machine

/-- Settles O11: a completed instruction ticks once after its dispatch, a fault and every other turn do not touch the timers, and
a run is the sum of its ticks. -/
theorem timersTickOncePerInstruction : Obligations.TimersTickOncePerInstruction := by
  refine ⟨fun i s => exec_ticks, fun i s hcause => ?_, fun turn s hturn => serve_timers hturn s,
    fun is s t => execAll_delay is⟩
  obtain ⟨cause, hcause⟩ := Option.ne_none_iff_exists'.1 hcause
  exact ⟨_, exec_of_faultCause hcause, rfl, rfl⟩

/-! ### What no instruction of a kind touches -/

namespace Machine

theorem not_touches_slot {i : Instr} (hi : ∀ nnn, i ≠ .call nnn) (s : State) (k : Fin 16) : ¬ touches i s (.slot k) := by
  cases i
  case call nnn => exact absurd rfl (hi nnn)
  all_goals simp [touches]

theorem not_touches_sp {i : Instr} (hcall : ∀ nnn, i ≠ .call nnn) (hret : i ≠ .ret) (s : State) : ¬ touches i s .sp := by
  cases i
  case call nnn => exact absurd rfl (hcall nnn)
  case ret => exact absurd rfl hret
  all_goals simp [touches]

theorem not_touches_flagRegister {i : Instr} (hi : mayWriteFlag i = false) (s : State) : ¬ touches i s (.reg 0xF#4) := by
  cases i
  case addReg | sub | shr | subr | shl | drw => cases hi
  case ldm x =>
    have hx : x ≠ 0xF#4 := by simpa [mayWriteFlag, flagRegister] using hi
    rintro ⟨k, hk, e⟩
    obtain rfl := Component.reg.inj e
    exact hx (BitVec.eq_of_toNat_eq (Nat.le_antisymm (Nat.le_of_lt_succ x.isLt) hk))
  case ldImm x _ | addImm x _ | ldReg x _ | orReg x _ | andReg x _ | xorReg x _ | rnd x _ | ldVxDt x =>
    have hx : x ≠ 0xF#4 := by simpa [mayWriteFlag, flagRegister] using hi
    simp [touches, hx.symm]
  all_goals simp [touches]

end Machine

/-- Settles O18: only `CALL` touches a slot, only `CALL` and `RET` touch `SP`, and neither is common to every instruction. -/
theorem stackIsTouchedByCallAndRetOnly : Obligations.StackIsTouchedByCallAndRetOnly := by
  intro i s hcall
  obtain ⟨t, ht⟩ := exec_next i s
  exact ⟨t, ht, fun k => exec_same ht (c := .slot k) (not_touches_slot hcall s k) (by simp),
    fun hret => exec_same ht (c := .sp) (not_touches_sp hcall hret s) (by simp)⟩

/-- Settles O30: an instruction that R11 does not list does not touch `V[15]`, which is not common to every instruction. -/
theorem flagRegisterIsOtherwiseUntouched : Obligations.FlagRegisterIsOtherwiseUntouched := by
  intro i s hi
  obtain ⟨t, ht⟩ := exec_next i s
  exact ⟨t, ht, exec_same ht (c := .reg 0xF#4) (not_touches_flagRegister hi s) (by simp)⟩

end Sys2Proof
end

section
/-! PROOFS. System instructions, control transfer, register and key skips (41_system.md to 43_skip.md). -/

namespace Sys2Proof

open Machine

/-! ### System -/

/-- Settles O12: the catch-all's dispatch is one event. -/
theorem unrecognizedWordIsLoggedAndContinued : Obligations.UnrecognizedWordIsLoggedAndContinued := by
  intro w s hw
  exact ⟨resolve_of_unrecognizedWord hw, Runs.of_exec rfl rfl rfl rfl rfl (fun _ hc => hc) ⟨rfl, rfl, rfl⟩⟩

/-- Settles O13: `SYS` takes what the two exact matches leave of family 0, and its dispatch is one event. -/
theorem sysIsALoggedNoOp : Obligations.SysIsALoggedNoOp := by
  intro nnn s hcls hret
  have hwf : (Instr.sys nnn).wellFormed = true := by simp [Instr.wellFormed, sysOperandOk, hcls, hret]
  exact ⟨resolve_encode hwf, Runs.of_exec rfl rfl rfl rfl rfl (fun _ hc => hc) rfl⟩

/-- Settles O14: `CLS` replaces the bitmap by the blank one and emits one event. -/
theorem clsUnsetsEveryPixel : Obligations.ClsUnsetsEveryPixel :=
  ⟨rfl, fun _ => Runs.of_exec rfl rfl rfl rfl rfl (fun _ hc => hc) ⟨fun _ _ => rfl, rfl⟩⟩

/-! ### Control transfer -/

/-- Settles O15: with an occupied slot `RET` is the advance and a pop, with none it is the fault. -/
theorem retPopsTheReturnAddress : Obligations.RetPopsTheReturnAddress := by
  refine ⟨rfl, fun s => ⟨fun k hk => ?_, fun hsp => ?_⟩⟩
  · have hs : s.sp.val ≠ 0 := by omega
    have htop : s.sp.val - 1 = k.val := by omega
    have hslot : (s.advance.pop (Nat.pos_of_ne_zero hs)).pc = s.slot k := by simp [State.slot, htop]
    exact Runs.of_exec (exec_ret_pops hs) (faultCause_ret_none.2 hs) hslot rfl rfl (fun _ hc => hc) htop
  · have hcause : faultCause .ret s = some .stackUnderflow := if_pos hsp
    exact ⟨_, _, exec_of_faultCause hcause, rfl, rfl, rfl, rfl, rfl, rfl, rfl⟩

/-- Settles O16: with a free slot `CALL` is the advance, a push and a load of `PC`, with none it is the fault. -/
theorem callPushesTheReturnAddress : Obligations.CallPushesTheReturnAddress := by
  refine fun nnn s => ⟨resolve_encode (i := .call nnn) rfl, fun k hk => ?_, fun hsp => ?_⟩
  · have hs : s.sp.val ≠ 16 := by omega
    refine Runs.of_exec (exec_call_pushes hs) (faultCause_call_none.2 hs) (absoluteTarget_eq_ofNat nnn) rfl rfl ?_ ⟨?_, ?_⟩
    · rintro c (hc | ⟨j, hj, hc⟩)
      · exact .inr hc
      · exact .inl (Fin.ext (hj.trans hk) ▸ hc)
    · exact (State.slot_push s.advance (Nat.lt_of_le_of_ne (Nat.le_of_lt_succ s.sp.isLt) hs) k).trans (if_pos hk.symm)
    · exact congrArg (· + 1) hk
  · have hcause : faultCause (.call nnn) s = some .stackOverflow := if_pos hsp
    exact ⟨_, _, exec_of_faultCause hcause, rfl, rfl, rfl, rfl, fault_frame s _⟩

/-- Settles O17: the slot the call wrote is the top one, so it is the one the return pops. -/
theorem returnAfterCallResumes : Obligations.ReturnAfterCallResumes := by
  intro nnn s hsp
  obtain ⟨-, hpush, -⟩ := callPushesTheReturnAddress nnn s
  obtain ⟨t, ht, -, -, -, -, hslot, htop⟩ := hpush ⟨s.sp.val, hsp⟩ rfl
  refine ⟨t, ht, fun a => ?_⟩
  obtain ⟨hpop, -⟩ := retPopsTheReturnAddress.2 (t.setPc a)
  obtain ⟨u, hu, hpc, -, -, -, hsp'⟩ := hpop ⟨s.sp.val, hsp⟩ htop.symm
  exact ⟨u, hu, hpc.trans hslot, Fin.ext hsp'⟩

/-! ### Skips -/

/-- Settles O21: each register skip is the advance and a skip, on equality or on its negation. -/
theorem registerSkips : Obligations.RegisterSkips := by
  intro x y n s
  have heq : Runs (.seReg x y n) s (if s.getV x == s.getV y then s.pc + 4#16 else s.pc + 2#16) nothing anyState :=
    Runs.of_skipIf rfl
  have hne : Runs (.sneReg x y n) s (if s.getV x != s.getV y then s.pc + 4#16 else s.pc + 2#16) nothing anyState :=
    Runs.of_skipIf rfl
  refine ⟨⟨resolve_encode (i := .seReg x y n) rfl, ?_⟩, resolve_encode (i := .sneReg x y n) rfl, ?_⟩
  · simpa only [beq_iff_eq] using heq
  · simpa only [bne_iff_ne, ite_not] using hne

namespace Machine

/-- R105: the key test in the integers, all 8 bits of `V[x]` compared. -/
theorem keyPressed_iff (s : State) (x : RegIdx) :
    keyPressed s x = true ↔ ∃ k, s.input = some k ∧ k.toNat = (s.getV x).toNat := by
  unfold keyPressed
  cases s.input with
  | none => simp
  | some k =>
    have hwiden : (k.zeroExtend 8).toNat = k.toNat := BitVec.toNat_setWidth_of_le (by decide)
    show (k.zeroExtend 8 == s.getV x) = true ↔ _
    rw [beq_iff_eq, ← BitVec.toNat_inj, hwiden]
    simp only [Option.some.injEq, exists_eq_left']

theorem runs_skp (x : RegIdx) (s : State) :
    Runs (.skp x) s (if keyPressed s x then s.pc + 4#16 else s.pc + 2#16) nothing anyState := Runs.of_skipIf rfl

theorem runs_sknp (x : RegIdx) (s : State) :
    Runs (.sknp x) s (if !keyPressed s x then s.pc + 4#16 else s.pc + 2#16) nothing anyState := Runs.of_skipIf rfl

end Machine

/-- Settles O22: both key skips are skips on one test, which the two hypotheses decide. -/
theorem keySkips : Obligations.KeySkips := by
  intro x s
  have hskp := runs_skp x s
  have hsknp := runs_sknp x s
  refine ⟨⟨resolve_encode (i := .skp x) rfl, resolve_encode (i := .sknp x) rfl⟩, fun hkey => ?_, fun hkey => ?_⟩
  · rw [(keyPressed_iff s x).2 hkey] at hskp hsknp
    exact ⟨hskp, hsknp⟩
  · have hnot : keyPressed s x = false := by
      rw [← Bool.not_eq_true, keyPressed_iff]
      exact fun ⟨k, hin, hk⟩ => hkey k hin hk
    rw [hnot] at hskp hsknp
    exact ⟨hskp, hsknp⟩

end Sys2Proof
end

section
/-! PROOFS. The classes of the ALU that write the flag register (44_alu.md R110, R111, R118 to R122), one register as both
operands, and the random byte (R123). -/

namespace Sys2Proof

open Machine

namespace Machine

/-! ### The flag register after the other write, and before it -/

/-- R111: a flag written last is what register 15 ends with, and every other destination keeps the result. -/
theorem getV_setV_setFlag (s : State) {x : RegIdx} (b : Byte) (flag : Bool) (hx : x ≠ 0xF#4) :
    ((s.setV x b).setFlag flag).getV x = b :=
  (State.getV_setFlag_ne _ _ hx).trans (State.getV_setV_same ..)

/-- R111: a flag written first is kept by a write of another register. -/
theorem getV_setFlag_setV (s : State) {x : RegIdx} (b : Byte) (flag : Bool) (hx : x ≠ 0xF#4) :
    ((s.setFlag flag).setV x b).getV 0xF#4 = if flag then 0x01#8 else 0x00#8 :=
  (State.getV_setV_ne _ _ hx.symm).trans (State.getV_setFlag_same ..)

/-! ### The flag outcomes in the integers -/

theorem getV_setFlag_decide (s : State) (p : Prop) [Decidable p] :
    (s.setFlag (decide p)).getV 0xF#4 = if p then 1#8 else 0#8 := by
  rw [State.getV_setFlag_same]
  by_cases h : p <;> simp [h]

/-- R120: the bit shifted out at the bottom, as the byte written into the flag register. -/
theorem lowBit_toNat (a : Byte) : (if lowBitFlag a then 0x01#8 else 0x00#8).toNat = a.toNat % 2 := by
  unfold lowBitFlag
  rw [BitVec.getLsbD, Nat.testBit_zero]
  rcases Nat.mod_two_eq_zero_or_one a.toNat with h | h <;> simp [h]

/-- R122: the bit shifted out at the top, as the byte written into the flag register. -/
theorem highBit_toNat (a : Byte) : (if highBitFlag a then 0x01#8 else 0x00#8).toNat = a.toNat / 128 := by
  have hlt : a.toNat / 128 < 2 := by have := a.isLt; omega
  unfold highBitFlag
  rw [BitVec.getLsbD, Nat.testBit_eq_decide_div_mod_eq, Nat.mod_eq_of_lt hlt]
  have hcases : a.toNat / 128 = 0 ∨ a.toNat / 128 = 1 := by omega
  rcases hcases with h | h <;> simp [h]

theorem shiftLeft_one_toNat (a : Byte) : (a <<< 1).toNat = (2 * a.toNat) % 256 := by
  rw [BitVec.toNat_shiftLeft, Nat.shiftLeft_eq, Nat.mul_comm]

theorem shiftRight_one_toNat (a : Byte) : (a >>> 1).toNat = a.toNat / 2 := by
  rw [BitVec.toNat_ushiftRight, Nat.shiftRight_eq_div_pow]

theorem sub_toNat (a b : Byte) : (a - b).toNat = (a.toNat + 256 - b.toNat) % 256 := by
  have := b.isLt
  rw [BitVec.toNat_sub]
  omega

end Machine

/-- Settles O25: the sum is written before the flag, so register 15 ends with the flag. -/
theorem addWritesTheCarry : Obligations.AddWritesTheCarry := by
  refine fun x y s => ⟨resolve_encode (i := .addReg x y) rfl, ?_⟩
  refine Runs.of_exec rfl rfl rfl rfl rfl (fun _ hc => hc) ⟨fun hx => ?_, getV_setFlag_decide _ _⟩
  exact (congrArg BitVec.toNat (getV_setV_setFlag _ _ _ hx)).trans (BitVec.toNat_add (s.getV x) (s.getV y))

/-- Settles O26: the difference is written before the flag, so register 15 ends with the flag. -/
theorem subtractionsWriteNoBorrow : Obligations.SubtractionsWriteNoBorrow := by
  refine fun x y s => ⟨⟨resolve_encode (i := .sub x y) rfl, ?_⟩, resolve_encode (i := .subr x y) rfl, ?_⟩
  · refine Runs.of_exec rfl rfl rfl rfl rfl (fun _ hc => hc) ⟨fun hx => ?_, getV_setFlag_decide _ _⟩
    exact (congrArg BitVec.toNat (getV_setV_setFlag _ _ _ hx)).trans (sub_toNat (s.getV x) (s.getV y))
  · refine Runs.of_exec rfl rfl rfl rfl rfl (fun _ hc => hc) ⟨fun hy => ?_, getV_setFlag_decide _ _⟩
    exact (congrArg BitVec.toNat (getV_setV_setFlag _ _ _ hy)).trans (sub_toNat (s.getV y) (s.getV x))

namespace Machine

/-- R120: what `8x-6` leaves in the destination and in the flag register. -/
theorem shr_result (s : State) (x : RegIdx) (a : Byte) (ha : s.getV x = a) :
    let flagged := s.setFlag (lowBitFlag a)
    let t := flagged.setV x (flagged.getV x >>> 1)
    (x ≠ 0xF#4 → (t.getV x).toNat = a.toNat / 2 ∧ (t.getV 0xF#4).toNat = a.toNat % 2) ∧ (x = 0xF#4 → t.getV x = 0#8) := by
  refine ⟨fun hx => ⟨?_, ?_⟩, ?_⟩
  · rw [State.getV_setV_same, State.getV_setFlag_ne _ _ hx, ha, shiftRight_one_toNat]
  · rw [getV_setFlag_setV _ _ _ hx, lowBit_toNat]
  · rintro rfl
    rw [State.getV_setV_same, State.getV_setFlag_same]
    cases lowBitFlag a <;> rfl

/-- R122: what `8x-E` leaves in the destination and in the flag register. -/
theorem shl_result (s : State) (x : RegIdx) (a : Byte) (ha : s.getV x = a) :
    let flagged := s.setFlag (highBitFlag a)
    let t := flagged.setV x (flagged.getV x <<< 1)
    (x ≠ 0xF#4 → (t.getV x).toNat = (2 * a.toNat) % 256 ∧ (t.getV 0xF#4).toNat = a.toNat / 128)
      ∧ (x = 0xF#4 → (t.getV x).toNat = 2 * (a.toNat / 128)) := by
  refine ⟨fun hx => ⟨?_, ?_⟩, ?_⟩
  · rw [State.getV_setV_same, State.getV_setFlag_ne _ _ hx, ha, shiftLeft_one_toNat]
  · rw [getV_setFlag_setV _ _ _ hx, highBit_toNat]
  · rintro rfl
    rw [State.getV_setV_same, State.getV_setFlag_same, ← highBit_toNat a]
    cases highBitFlag a <;> rfl

end Machine

/-- Settles O27: the flag is written before the register is read, so register 15 ends with the shifted flag. -/
theorem shiftsWriteTheBitShiftedOut : Obligations.ShiftsWriteTheBitShiftedOut := by
  refine fun x n s => ⟨⟨resolve_encode (i := .shr x n) rfl, ?_⟩, resolve_encode (i := .shl x n) rfl, ?_⟩
  · exact Runs.of_exec rfl rfl rfl rfl rfl (fun _ hc => hc) (shr_result s.advance x (s.getV x) rfl)
  · exact Runs.of_exec rfl rfl rfl rfl rfl (fun _ hc => hc) (shl_result s.advance x (s.getV x) rfl)

/-- Settles O28: what the results of the classes are when both operands are one register. -/
theorem oneRegisterAsBothOperands : Obligations.OneRegisterAsBothOperands := by
  intro x s hx
  refine ⟨?_, ?_, ?_, ?_, ?_, ?_, ?_⟩
  · obtain ⟨-, t, ht, -, -, -, -, hsum, hcarry⟩ := addWritesTheCarry x x s
    have hlt := (s.getV x).isLt
    refine ⟨t, ht, (hsum hx).trans (by rw [Nat.two_mul]), ?_⟩
    rw [hcarry]
    split <;> simp only [BitVec.toNat_ofNat] <;> omega
  · exact ⟨_, rfl, (getV_setV_setFlag _ _ _ hx).trans (BitVec.sub_self _), by simp [noBorrowFlag]⟩
  · exact ⟨_, rfl, (getV_setV_setFlag _ _ _ hx).trans (BitVec.sub_self _), by simp [noBorrowFlag]⟩
  · exact ⟨_, rfl, State.getV_setV_same ..⟩
  · exact ⟨_, rfl, (State.getV_setV_same ..).trans BitVec.or_self⟩
  · exact ⟨_, rfl, (State.getV_setV_same ..).trans BitVec.and_self⟩
  · exact ⟨_, rfl, (State.getV_setV_same ..).trans BitVec.xor_self⟩

/-- Settles O29: the draw is masked, whatever byte it is, and a masked byte has no bit outside the mask. -/
theorem rndMasksTheDraw : Obligations.RndMasksTheDraw := by
  refine fun x kk s => ⟨resolve_encode (i := .rnd x kk) rfl, ?_⟩
  have hdrawn : ((s.advance.consumeDraw.setV x (s.drawnByte &&& kk)).getV x) = Config.randomByte s.draws &&& kk :=
    State.getV_setV_same ..
  refine Runs.of_exec rfl rfl rfl rfl rfl (fun _ hc => hc) ⟨hdrawn, ?_, rfl⟩
  rw [State.decrementTimers_getV, hdrawn, BitVec.and_assoc, BitVec.and_not_self]
  exact BitVec.and_zero

namespace Machine

/-- R132: the product is taken in 16 bits, where five times a byte does not wrap. -/
theorem glyphAddress_toNat (b : Byte) : (glyphAddress b).toNat = 5 * b.toNat := by
  have hwiden : (b.zeroExtend 16).toNat = b.toNat := BitVec.toNat_setWidth_of_le (by decide)
  have hlt := b.isLt
  rw [glyphAddress, BitVec.toNat_mul, hwiden, BitVec.toNat_ofNat]
  omega

end Machine

/-- Settles O32: the class is the advance and one write of `I`, of five times the byte. -/
theorem glyphAddress : Obligations.GlyphAddress := fun x s =>
  ⟨resolve_encode (i := .ldF x) rfl, (Runs.of_setI rfl).imp fun _ ht => ht ▸ glyphAddress_toNat (s.getV x)⟩

/-- Settles O41: `Fx0A` is the advance and one write of the latch. -/
theorem keyWaitStartsTheHold : Obligations.KeyWaitStartsTheHold := fun x _ =>
  ⟨resolve_encode (i := .ldVxK x) rfl, Runs.of_exec rfl rfl rfl rfl rfl (fun _ hc => hc) rfl⟩

end Sys2Proof
end

section
/-! PROOFS. The memory instructions (45_index_memory.md R133 to R136) and their bytes as code (R52). -/

namespace Sys2Proof

open Machine

namespace Machine

theorem readByte_writeBytes_inside (bs : List Byte) (s : State) (a k : Nat) (hk : k < bs.length) :
    (s.writeBytes a bs).readByte (a + k) = bs[k] := by
  rw [State.readByte_writeBytes, dif_pos ⟨Nat.le_add_right a k, Nat.add_lt_add_left hk a⟩]
  simp

/-- R133: the digits of a byte fit a byte each. -/
theorem digit_toNat {n : Nat} (h : n < 256) : (BitVec.ofNat 8 n).toNat = n := by
  rw [BitVec.toNat_ofNat, Nat.mod_eq_of_lt h]

/-- R133: `Fx33` leaves digit `k` at element `k`. -/
theorem runs_bcd {x : RegIdx} {s : State} (h : s.i.toNat + 2 ≤ 0xFFF) :
    Runs (.bcd x) s (s.pc + 2#16) (fun c => ∃ k < 3, c = .byte (elementAddress s k))
      (fun t => ∀ k (hk : k < 3), t.readByte (elementAddress s k) = (bcdDigits (s.getV x))[k]) :=
  have hfits := Nat.not_lt.2 h
  Runs.of_exec (exec_bcd_stores hfits) (faultCause_bcd_none.2 hfits) rfl rfl rfl (fun _ hc => hc) fun k hk =>
    readByte_writeBytes_inside (bcdDigits (s.getV x)) s.advance s.i.toNat k hk

/-- R134: `Fx55` leaves register `k` at element `k`. -/
theorem runs_stm {x : RegIdx} {s : State} (h : s.i.toNat + x.toNat ≤ 0xFFF) :
    Runs (.stm x) s (s.pc + 2#16) (fun c => ∃ k ≤ x.toNat, c = .byte (elementAddress s k))
      (fun t => ∀ k : RegIdx, k.toNat ≤ x.toNat → t.readByte (elementAddress s k.toNat) = s.getV k) := by
  have hfits := Nat.not_lt.2 h
  refine Runs.of_exec (exec_stm_stores hfits) (faultCause_stm_none.2 hfits) (by simp) (by simp) (by simp) (fun _ hc => hc)
    fun k hk => ?_
  have hlen : k.toNat < (s.registersFrom 0 (registerCount x)).length := by
    rw [State.registersFrom_length]
    exact Nat.lt_succ_of_le hk
  refine (readByte_writeBytes_inside _ s.advance s.i.toNat k.toNat hlen).trans ?_
  simp

/-- R135: `Fx65` leaves element `k` in register `k`. -/
theorem runs_ldm {x : RegIdx} {s : State} (h : s.i.toNat + x.toNat ≤ 0xFFF) :
    Runs (.ldm x) s (s.pc + 2#16) (fun c => ∃ k : RegIdx, k.toNat ≤ x.toNat ∧ c = .reg k)
      (fun t => ∀ k : RegIdx, k.toNat ≤ x.toNat → t.getV k = s.readByte (elementAddress s k.toNat)) := by
  have hfits := Nat.not_lt.2 h
  refine Runs.of_exec (exec_ldm_loads hfits) (faultCause_ldm_none.2 hfits) (by simp) (by simp) (by simp) (fun _ hc => hc)
    fun k hk => ?_
  have hlen : (s.readBytes (elementAddress s 0) (registerCount x)).length = x.toNat + 1 := State.readBytes_length ..
  rw [State.decrementTimers_getV, State.getV_loadRegisters _ _ _ (hlen ▸ (by have := x.isLt; omega)),
    dif_pos ⟨Nat.zero_le _, by omega⟩]
  simp [elementAddress]

end Machine

/-- Settles O33: each store runs with its bytes in place, the digits of `Fx33` being below ten. -/
theorem storesWriteTheirBytes : Obligations.StoresWriteTheirBytes := by
  refine fun x s => ⟨⟨resolve_encode (i := .bcd x) rfl, resolve_encode (i := .stm x) rfl⟩, fun h => ?_, runs_stm⟩
  refine (runs_bcd h).imp fun t ht => ?_
  have hlt := (s.getV x).isLt
  rw [ht 0 (by decide), ht 1 (by decide), ht 2 (by decide)]
  exact ⟨digit_toNat (by omega), digit_toNat (by omega), digit_toNat (by omega)⟩

/-- Settles O34: a load whose range fits runs with its registers in place, one whose range does not fit is the fault. -/
theorem loadsReadTheirBytes : Obligations.LoadsReadTheirBytes := by
  refine fun x s => ⟨resolve_encode (i := .ldm x) rfl, runs_ldm, fun h => ?_⟩
  have hcause : faultCause (.ldm x) s = some (.memoryOutOfRange 0x1000#16) := if_pos h
  exact ⟨_, _, exec_of_faultCause hcause, rfl, rfl, rfl, fun _ => rfl⟩

/-- Settles O35: the two elements stand at consecutive addresses, and a fetch joins what stands there. -/
theorem storedCodeIsFetched : Obligations.StoredCodeIsFetched := by
  intro x s k l h hl hlx
  obtain ⟨t, ht, -, -, -, -, hstored⟩ := runs_stm h
  refine ⟨t, ht, ?_⟩
  have haddr : (BitVec.ofNat 16 (elementAddress s k.toNat)).toNat = elementAddress s k.toNat := by
    rw [BitVec.toNat_ofNat, Nat.mod_eq_of_lt]
    unfold elementAddress
    omega
  have hnext : elementAddress s k.toNat + 1 = elementAddress s l.toNat := by
    unfold elementAddress
    omega
  show joinBytes (t.readByte (BitVec.ofNat 16 (elementAddress s k.toNat)).toNat)
    (t.readByte ((BitVec.ofNat 16 (elementAddress s k.toNat)).toNat + 1)) = _
  rw [haddr, hnext, hstored k (by omega), hstored l hlx]

end Sys2Proof
end

section
/-! PROOFS. What no instruction reads: the output trace, the settled turns, `ST`, and, but for the key skips, `input`. One theorem
runs an instruction in two states that differ in these components only; the statements about each of them follow. -/

namespace Sys2Proof

open Machine

namespace Machine

/-- `s` with other settled turns, another `input`, another `ST` and another output trace. -/
def State.withUnread (s : State) (ts : List Turn) (report : Option Key) (b : Byte) (tr : List Output) : State :=
  { s with turns := ts, input := report, st := b, trace := tr }

theorem State.writeBytes_withUnread (bs : List Byte) (s : State) (a : Nat) (ts : List Turn) (report : Option Key) (b : Byte)
    (tr : List Output) : (s.withUnread ts report b tr).writeBytes a bs = (s.writeBytes a bs).withUnread ts report b tr := by
  induction bs generalizing s a with
  | nil => rfl
  | cons c bs ih => exact ih (s.writeByte a c) (a + 1)

theorem State.loadRegisters_withUnread (bs : List Byte) (s : State) (k : Nat) (ts : List Turn) (report : Option Key) (b : Byte)
    (tr : List Output) : (s.withUnread ts report b tr).loadRegisters k bs = (s.loadRegisters k bs).withUnread ts report b tr := by
  induction bs generalizing s k with
  | nil => rfl
  | cons c bs ih => exact ih (s.setV (BitVec.ofNat 4 k) c) (k + 1)

theorem faultCause_withUnread (i : Instr) (s : State) (ts : List Turn) (report : Option Key) (b : Byte) (tr : List Output) :
    faultCause i (s.withUnread ts report b tr) = faultCause i s := by
  cases i <;> rfl

section

variable {i : Instr} {s : State} {ts : List Turn} {report : Option Key} {b : Byte} {tr : List Output}

/-- `i` ends in two states that differ in the unread components only: the turns and `input` stay those of the first states, `ST`
and the trace are equal where they were equal before. -/
def EndsAlike (i : Instr) (s : State) (ts : List Turn) (report : Option Key) (b : Byte) (tr : List Output) : Prop :=
  ∃ t b' tr', exec i s = .next t ∧ exec i (s.withUnread ts report b tr) = .next (t.withUnread ts report b' tr')
    ∧ t.turns = s.turns ∧ t.input = s.input ∧ (b = s.st → b' = t.st) ∧ (tr = s.trace → tr' = t.trace)

theorem EndsAlike.of_faultCause {cause : Cause} (h : faultCause i s = some cause) : EndsAlike i s ts report b tr :=
  ⟨_, b, tr, exec_of_faultCause h, exec_of_faultCause ((faultCause_withUnread ..).trans h), rfl, rfl, id, id⟩

/-- It is enough to compare the two dispatched states. -/
theorem EndsAlike.of_dispatched {u : State} {c : Byte} {tr' : List Output} (hcause : faultCause i s = none)
    (hu : exec i s = .next u.decrementTimers)
    (hu' : exec i (s.withUnread ts report b tr) = .next (u.withUnread ts report c tr').decrementTimers)
    (hst : b = s.st → c = u.st) (htr : tr = s.trace → tr' = u.trace) : EndsAlike i s ts report b tr := by
  obtain ⟨v, hv, hd⟩ := exec_of_no_faultCause hcause
  have huv : v.decrementTimers = u.decrementTimers := Host.Outcome.next.inj (hv.symm.trans hu)
  have hturns : v.turns = u.turns := (congrArg State.turns huv :)
  have hinput : v.input = u.input := (congrArg State.input huv :)
  exact ⟨_, tick c, tr', hu, hu', hturns ▸ hd.turns, hinput ▸ hd.input, fun h => congrArg tick (hst h), htr⟩

theorem EndsAlike.of_skipIf {taken : Bool} (hcause : faultCause i s = none)
    (hu : exec i s = .next (s.advance.skipIf taken).decrementTimers)
    (hu' : exec i (s.withUnread ts report b tr) = .next ((s.withUnread ts report b tr).advance.skipIf taken).decrementTimers) :
    EndsAlike i s ts report b tr := by
  rw [State.skipIf_eq] at hu hu'
  exact .of_dispatched hcause hu hu' id id

/-- No instruction reads the turns, `ST` or the trace, and none but the key skips reads `input`. -/
theorem exec_withUnread (hreport : report = s.input ∨ ∀ x, i ≠ .skp x ∧ i ≠ .sknp x) : EndsAlike i s ts report b tr := by
  cases hcause : faultCause i s with
  | some cause => exact .of_faultCause hcause
  | none =>
    cases i
    case ret =>
      have hs := faultCause_ret_none.1 hcause
      exact .of_dispatched hcause (exec_ret_pops hs) (exec_ret_pops (s := s.withUnread ts report b tr) hs) id id
    case call nnn =>
      have hs := faultCause_call_none.1 hcause
      exact .of_dispatched hcause (exec_call_pushes hs) (exec_call_pushes (s := s.withUnread ts report b tr) hs) id id
    case drw x y n =>
      have hs := faultCause_drw_none.1 hcause
      have hbytes := State.readBytes_congr (s := s) (t := s.withUnread ts report b tr) rfl rfl (elementAddress s 0) n.toNat
      have hdraws := exec_drw_draws (x := x) (y := y) (s := s.withUnread ts report b tr) hs
      rw [show elementAddress (s.withUnread ts report b tr) 0 = elementAddress s 0 from rfl, hbytes] at hdraws
      exact .of_dispatched hcause (exec_drw_draws hs) hdraws id (congrArg (· ++ [_]))
    case bcd x =>
      have hs := faultCause_bcd_none.1 hcause
      exact .of_dispatched hcause (exec_bcd_stores hs) (exec_bcd_stores (s := s.withUnread ts report b tr) hs) id id
    case stm x =>
      have hs := faultCause_stm_none.1 hcause
      have hregs := State.registersFrom_congr (s := s) (t := s.withUnread ts report b tr) rfl 0 (registerCount x)
      have hstores := exec_stm_stores (x := x) (s := s.withUnread ts report b tr) hs
      rw [hregs] at hstores
      refine .of_dispatched (c := b) (tr' := tr) hcause (exec_stm_stores hs) ?_ (by simp) (by simp)
      exact hstores.trans (congrArg (fun u => Host.Outcome.next u.decrementTimers)
        (State.writeBytes_withUnread _ s.advance _ ts report b tr))
    case ldm x =>
      have hs := faultCause_ldm_none.1 hcause
      have hbytes := State.readBytes_congr (s := s) (t := s.withUnread ts report b tr) rfl rfl (elementAddress s 0)
        (registerCount x)
      have hloads := exec_ldm_loads (x := x) (s := s.withUnread ts report b tr) hs
      rw [show elementAddress (s.withUnread ts report b tr) 0 = elementAddress s 0 from rfl, hbytes] at hloads
      refine .of_dispatched (c := b) (tr' := tr) hcause (exec_ldm_loads hs) ?_ (by simp) (by simp)
      exact hloads.trans (congrArg (fun u => Host.Outcome.next u.decrementTimers)
        (State.loadRegisters_withUnread _ s.advance _ ts report b tr))
    case skp x | sknp x =>
      obtain rfl : report = s.input := hreport.resolve_right fun h => by simpa using h x
      exact .of_skipIf hcause rfl rfl
    case cls | sys | unrecognized => exact .of_dispatched hcause rfl rfl id (congrArg (· ++ [_]))
    case ldStVx => exact .of_dispatched hcause rfl rfl (fun _ => rfl) id
    case seImm | sneImm | seReg | sneReg => exact .of_skipIf hcause rfl rfl
    all_goals exact .of_dispatched hcause rfl rfl id id

end

end Machine

/-- Settles O52: states with one core differ in the trace only, which no instruction reads. -/
theorem outputsNeverFeedBack : Obligations.OutputsNeverFeedBack := by
  intro i s t hcore
  have ht : t = s.withUnread s.turns s.input s.st t.trace :=
    congrArg (fun u : State => { u with trace := t.trace }) hcore.symm
  obtain ⟨a, b', tr', ha, hb, hturns, hinput, hst, -⟩ :=
    exec_withUnread (i := i) (s := s) (ts := s.turns) (b := s.st) (tr := t.trace) (.inl rfl)
  refine ⟨a, _, ha, (congrArg (exec i) ht).trans hb, ?_⟩
  rw [hst rfl, ← hturns, ← hinput]
  rfl

/-- Settles O53: an instruction that is no key skip ends with `input` as it was, and else as with any other content. -/
theorem onlyKeySkipsReadInput : Obligations.OnlyKeySkipsReadInput := by
  intro i s report hi
  obtain ⟨t, b', tr', ht, ht', hturns, -, hst, htr⟩ :=
    exec_withUnread (i := i) (s := s) (ts := s.turns) (report := report) (b := s.st) (tr := s.trace) (.inr hi)
  refine ⟨t, ht, ht'.trans ?_⟩
  rw [hst rfl, htr rfl, ← hturns]
  rfl

/-- Settles O54: `ST` is among what no instruction reads. -/
theorem soundTimerInfluencesNothing : Obligations.SoundTimerInfluencesNothing := by
  intro i s b
  obtain ⟨t, b', tr', ht, ht', hturns, hinput, -, htr⟩ :=
    exec_withUnread (i := i) (s := s) (ts := s.turns) (b := b) (tr := s.trace) (.inl rfl)
  refine ⟨t, _, ht, ht', ?_⟩
  rw [htr rfl, ← hturns, ← hinput]
  rfl

end Sys2Proof
end

section
/-! PROOFS. A step of the scheduler by the turn it takes (48_scheduler.md R160 to R174): which turn that is, then what the step
does with an instruction, a fetch past memory, a report, a frame and a quit. -/

namespace Sys2Proof

open Machine

namespace Machine

/-! ### The turn taken -/

theorem dropTurn_settled {s : State} {turn : Turn} {rest : List Turn} (h : s.turns = turn :: rest) :
    s.dropTurn = s.setTurns rest := by
  rw [State.dropTurn_eq, h]
  rfl

theorem dropTurn_free {s : State} (h : s.turns = []) : s.dropTurn = s.setEvents (s.events + 1) := by
  have hsame : s.setTurns [] = s := by rw [← h]; rfl
  rw [State.dropTurn_eq, h, List.tail_nil, hsame]
  rfl

theorem step_settled {s : State} {turn : Turn} {rest : List Turn} (hm : s.mode.terminal = false) (h : s.turns = turn :: rest) :
    step s = serve turn (s.setTurns rest) := by
  rw [step_serve hm (nextTurn_cons h), dropTurn_settled h]

/-- R163: outside the terminal modes the machine always goes on. -/
theorem step_next {s : State} (hm : s.mode.terminal = false) : ∃ t, step s = .next t := by
  cases ht : s.nextTurn with
  | none => exact ⟨_, step_rest hm ht⟩
  | some turn =>
    rw [step_serve hm ht]
    exact serve_next turn _

theorem step_terminal {s : State} (hm : s.mode.terminal = true) : ∃ f, step s = .fault f := by
  cases h : s.mode with
  | stopped => exact ⟨_, step_stopped h⟩
  | faulted => exact ⟨_, step_faulted h⟩
  | running => simp [h, Mode.terminal] at hm
  | awaitingManualStep => simp [h, Mode.terminal] at hm

end Machine

/-- Settles O46: a step in a terminal mode is the named fault, and every other step serves a turn or rests. -/
theorem onlyTerminalModesHaveNoNextState : Obligations.OnlyTerminalModesHaveNoNextState := by
  refine fun s => ⟨⟨fun hm t ht => ?_, fun hstuck => ?_⟩, step_stopped, step_faulted⟩
  · obtain ⟨f, hf⟩ := step_terminal hm
    rw [hf] at ht
    cases ht
  · by_contra hm
    obtain ⟨t, ht⟩ := step_next (Bool.eq_false_iff.2 hm)
    exact hstuck t ht

/-- Settles O60: a settled turn is used up before it is served, and a free one is the environment's answer. -/
theorem everyOrderOfEventsIsAdmitted : Obligations.EveryOrderOfEventsIsAdmitted := by
  refine fun s hm => ⟨fun turn => step_settled (s := s.setTurns (turn :: s.turns)) hm rfl, fun hfree => ?_⟩
  have hnext := nextTurn_free hfree
  cases henv : Config.environmentTurn s.events with
  | none => rw [step_rest hm (hnext.trans henv), dropTurn_free hfree]
  | some turn => rw [step_serve hm (hnext.trans henv), dropTurn_free hfree]

/-! ### An instruction -/

namespace Machine

theorem fetchedWord_congr {s t : State} (hc : t.config = s.config) (hm : t.mem = s.mem) (hp : t.pc = s.pc) :
    t.fetchedWord = s.fetchedWord := by
  unfold State.fetchedWord State.readByte
  rw [hc, hm, hp]

theorem fetchedWord_dropTurn (s : State) : s.dropTurn.fetchedWord = s.fetchedWord := fetchedWord_congr rfl rfl rfl

end Machine

/-- Settles O7: the two bytes at `PC` are the fetched word, so what they decode to is what the step executes. -/
theorem stepRunsTheDecodedInstruction : Obligations.StepRunsTheDecodedInstruction := by
  intro s i hserves hpc hdecode
  have hresolve : resolve s.fetchedWord = i := congrArg Prod.fst (Except.ok.inj hdecode)
  exact ⟨hresolve ▸ step_exec hserves hpc, dropTurn_frame s⟩

/-- Settles O9: the fetch fault writes `FR` and the mode only. -/
theorem fetchPastMemoryFaults : Obligations.FetchPastMemoryFaults := by
  intro s hserves hpc
  have hfault : Unchanged (fun c => c = .mode ∨ c = .fr) s.dropTurn
      ((s.dropTurn.setFr ⟨.fetchOutOfRange, s.pc, none⟩).setMode .faulted) := fun c hc =>
    (Component.same_setFr (fun e => hc (.inr e)) ..).trans (Component.same_setMode (fun e => hc (.inl e)) ..)
  exact ⟨_, step_fetchOutOfRange hserves hpc, rfl, rfl, step_frame hfault⟩

namespace Machine

/-- R42, R81: a word placed at `PC` is the word fetched. -/
theorem fetchedWord_placeWord (s : State) (w : Word) : (s.placeWord w).fetchedWord = w := by
  unfold State.placeWord State.fetchedWord
  have hhigh : (s.writeBytes s.pc.toNat [highByte w, lowByte w]).readByte s.pc.toNat = highByte w :=
    readByte_writeBytes_inside [highByte w, lowByte w] s s.pc.toNat 0 Nat.zero_lt_two
  have hlow : (s.writeBytes s.pc.toNat [highByte w, lowByte w]).readByte (s.pc.toNat + 1) = lowByte w :=
    readByte_writeBytes_inside [highByte w, lowByte w] s s.pc.toNat 1 Nat.one_lt_two
  rw [State.writeBytes_pc, hhigh, hlow]
  exact joinBytes_high_low w

theorem placeWord_serves {s : State} (h : ServesInstruction s) (w : Word) : ServesInstruction (s.placeWord w) := by
  unfold ServesInstruction State.nextTurn State.placeWord at *
  simpa only [State.writeBytes_mode, State.writeBytes_kw, State.writeBytes_turns, State.writeBytes_events] using h

theorem tableWord_toNat (w : Word) : tableWord 16 w.toNat = w := by
  rw [tableWord, Nat.mod_eq_of_lt w.isLt, BitVec.ofNat_toNat, BitVec.setWidth_eq]

end Machine

/-- Settles O8: the state made ready serves an instruction with its fetch inside memory, and placing the word keeps it so. -/
theorem placedWordRunsNext : Obligations.PlacedWordRunsNext := by
  intro s w
  obtain ⟨hready, hpc⟩ := readyToFetch_serves s
  unfold State.withFetchWord
  rw [tableWord_toNat]
  have hserves := placeWord_serves hready w
  refine ⟨?_, hserves⟩
  rw [step_exec hserves (by rwa [State.placeWord, State.writeBytes_pc]), fetchedWord_placeWord]

/-! ### Reports, frames and quit -/

namespace Machine

/-- R165, R170: an input-ready turn takes the oldest report. -/
theorem step_input {s : State} {report : Option Key} {rest : List (Option Key)} (hm : s.mode.terminal = false)
    (hnext : s.nextTurn = some .inputReady) (hqueue : s.inputQueue = report :: rest) :
    step s = .next (handleInput report (s.dropTurn.setInputQueue rest)) := by
  have hqueue' : s.dropTurn.inputQueue = report :: rest := hqueue
  rw [step_serve hm hnext, serve, hqueue']

/-- R170: the frame of a step that takes a report and stores it in `input`. -/
theorem setInput_frame (s : State) (report : Option Key) (rest : List (Option Key)) :
    Unchanged (fun c => c = .turns ∨ c = .events ∨ c = .inputQueue ∨ c = .input) s
      ((s.dropTurn.setInputQueue rest).setInput report) :=
  step_frame fun _ hc => (Component.same_setInputQueue (fun e => hc (.inl e)) ..).trans
    (Component.same_setInput (fun e => hc (.inr e)) ..)

end Machine

/-- Settles O42: in a hold an instruction-ready turn is used up unserved, a press completes the hold and a release does not. -/
theorem keyHoldEndsWithAPress : Obligations.KeyHoldEndsWithAPress := by
  intro s x hm hkw
  refine ⟨fun hnext => ?_, fun k rest hnext hqueue => ?_, fun rest hnext hqueue => ?_⟩
  · have hkw' : s.dropTurn.kw = some x := hkw
    refine ⟨s.dropTurn, ?_, dropTurn_frame s⟩
    rw [step_serve hm hnext, serve, hkw']
    rfl
  · have hstep := step_input hm hnext hqueue
    rw [handleInput_press (s := s.dropTurn.setInputQueue rest) hkw] at hstep
    refine ⟨_, hstep, rfl, ?_, rfl, rfl, fun c hc => ?_⟩
    · exact (congrArg BitVec.toNat (State.getV_setV_same ..)).trans (BitVec.toNat_setWidth_of_le (by decide))
    · exact ((setInput_frame s (some k) rest c fun h => hc (by tauto)).trans
        (Component.same_setV (fun e => hc (by simp [e])) ..)).trans (Component.same_setKw (fun e => hc (by simp [e])) ..)
  · have hstep := step_input hm hnext hqueue
    rw [handleInput_release] at hstep
    exact ⟨_, hstep, rfl, hkw, rfl, setInput_frame s none rest⟩

/-- Settles O43: with no hold the report goes to `input` alone, and a new one to the end of the FIFO. -/
theorem inputReportsReplaceInput : Obligations.InputReportsReplaceInput := by
  refine fun s hm => ⟨fun report rest hkw hnext hqueue => ?_, fun report hnext => ?_⟩
  · have hstep := step_input hm hnext hqueue
    rw [handleInput_none (s := s.dropTurn.setInputQueue rest) hkw] at hstep
    exact ⟨_, hstep, rfl, rfl, setInput_frame s report rest⟩
  · exact ⟨_, step_serve hm hnext, rfl, step_frame fun c hc => Component.same_setInputQueue hc ..⟩

/-- Settles O44: a frame is one event on the trace. -/
theorem frameChangesNoCoreState : Obligations.FrameChangesNoCoreState := fun _ hm hnext =>
  ⟨_, step_serve hm hnext, rfl, step_frame fun _ hc => Component.same_emit hc ..⟩

/-- Settles O45: a quit is one write of the mode. -/
theorem quitStopsTheMachine : Obligations.QuitStopsTheMachine := fun _ hm hnext =>
  ⟨_, step_serve hm hnext, rfl, step_frame fun _ hc => Component.same_setMode hc ..⟩

namespace Machine

theorem faultCause_setTurns (i : Instr) (s : State) (ts : List Turn) : faultCause i (s.setTurns ts) = faultCause i s := by
  cases i <;> rfl

end Machine

/-- Settles O48: a settled frame emits its event; a settled command executes the word at `PC`, which keeps mode, turns and events.
-/
theorem debugStepperExecutesOneInstruction : Obligations.DebugStepperExecutesOneInstruction := by
  intro s rest hmode
  have hm : s.mode.terminal = false := by rw [hmode]; rfl
  refine ⟨fun hturns => ?_, fun i hkw hturns hpc hword hcause => ?_⟩
  · exact ⟨_, step_settled hm hturns, hmode, rfl, rfl, fun c hc => (Component.same_setTurns (fun e => hc (.inl e)) ..).trans
      (Component.same_emit (fun e => hc (.inr e)) ..)⟩
  · have hserves : ServesInstruction s := ⟨hm, hkw, nextTurn_cons hturns⟩
    obtain ⟨u, hu, hd⟩ := exec_of_no_faultCause ((faultCause_setTurns i s rest).trans hcause)
    refine ⟨_, ?_, hu, hd.mode.trans hmode, hd.turns, hd.events⟩
    rw [step_exec hserves hpc, hword, dropTurn_settled hturns, hu]

/-! ### What an instruction alone can do -/

namespace Machine

/-- The program's own state, as data, is the same in both states. -/
structure SameProgram (s t : State) : Prop where
  config : t.config = s.config
  i : t.i = s.i
  pc : t.pc = s.pc
  sp : t.sp = s.sp
  stack : t.stack = s.stack
  mem : t.mem = s.mem
  fb : t.fb = s.fb
  fr : t.fr = s.fr

theorem handleInput_sameProgram (report : Option Key) (s : State) :
    SameProgram s (handleInput report s) ∧ (handleInput report s).mode = s.mode := by
  unfold handleInput
  split
  · exact ⟨⟨rfl, rfl, rfl, rfl, rfl, rfl, rfl, rfl⟩, rfl⟩
  · exact ⟨⟨rfl, rfl, rfl, rfl, rfl, rfl, rfl, rfl⟩, rfl⟩
  · exact ⟨⟨rfl, rfl, rfl, rfl, rfl, rfl, rfl, rfl⟩, rfl⟩

/-- The cases of a step by what it does to the program: nothing, the fetch fault, or one instruction. -/
theorem step_program_cases {s t : State} (h : step s = .next t) :
    (SameProgram s t ∧ (t.mode = s.mode ∨ (t.mode = .stopped ∧ s.nextTurn = some .quitReady)))
      ∨ (ServesInstruction s ∧ t = (s.dropTurn.setFr ⟨.fetchOutOfRange, s.pc, none⟩).setMode .faulted)
      ∨ (ServesInstruction s ∧ s.pc.toNat ≤ 0xFFE ∧ exec (resolve s.fetchedWord) s.dropTurn = .next t) := by
  obtain ⟨hm, ⟨-, rfl⟩ | ⟨turn, hnext, hserve⟩⟩ := step_cases h
  · exact .inl ⟨⟨rfl, rfl, rfl, rfl, rfl, rfl, rfl, rfl⟩, .inl rfl⟩
  rcases serve_cases hserve with ⟨-, -, rfl⟩ | ⟨rfl, hkw, -, rfl⟩ | ⟨rfl, hkw, hpc, hexec⟩ | ⟨-, rfl⟩ | ⟨-, -, rfl⟩ |
    ⟨report, rest, -, -, rfl⟩ | ⟨rfl, rfl⟩ | ⟨report, -, rfl⟩
  · exact .inl ⟨⟨rfl, rfl, rfl, rfl, rfl, rfl, rfl, rfl⟩, .inl rfl⟩
  · exact .inr (.inl ⟨⟨hm, hkw, hnext⟩, rfl⟩)
  · exact .inr (.inr ⟨⟨hm, hkw, hnext⟩, hpc, fetchedWord_dropTurn s ▸ hexec⟩)
  · exact .inl ⟨⟨rfl, rfl, rfl, rfl, rfl, rfl, rfl, rfl⟩, .inl rfl⟩
  · exact .inl ⟨⟨rfl, rfl, rfl, rfl, rfl, rfl, rfl, rfl⟩, .inl rfl⟩
  · obtain ⟨hp, hmode⟩ := handleInput_sameProgram report (s.dropTurn.setInputQueue rest)
    exact .inl ⟨⟨hp.config, hp.i, hp.pc, hp.sp, hp.stack, hp.mem, hp.fb, hp.fr⟩, .inl hmode⟩
  · exact .inl ⟨⟨rfl, rfl, rfl, rfl, rfl, rfl, rfl, rfl⟩, .inr ⟨rfl, hnext⟩⟩
  · exact .inl ⟨⟨rfl, rfl, rfl, rfl, rfl, rfl, rfl, rfl⟩, .inl rfl⟩

/-- The mode after an instruction: as before, or `Faulted` with a record. -/
theorem exec_mode {i : Instr} {s t : State} (h : exec i s = .next t) :
    t.config = s.config ∧ ((t.mode = s.mode ∧ t.fr = s.fr) ∨ (t.mode = .faulted ∧ t.fr.isSome = true)) := by
  cases hcause : faultCause i s with
  | some cause =>
    rw [exec_of_faultCause hcause] at h
    obtain rfl := Host.Outcome.next.inj h
    exact ⟨rfl, .inr ⟨rfl, rfl⟩⟩
  | none =>
    obtain ⟨u, hu, hd⟩ := exec_of_no_faultCause hcause
    obtain rfl := Host.Outcome.next.inj (hu.symm.trans h)
    exact ⟨hd.config, .inl ⟨hd.mode, hd.fr⟩⟩

theorem touches_byte {i : Instr} {s : State} {a : Nat} (h : touches i s (.byte a)) :
    ∃ x, (i = .bcd x ∧ s.i.toNat ≤ a ∧ a ≤ s.i.toNat + 2) ∨ (i = .stm x ∧ s.i.toNat ≤ a ∧ a ≤ s.i.toNat + x.toNat) := by
  cases i
  case bcd x =>
    obtain ⟨k, hk, e⟩ := h
    obtain rfl : a = s.i.toNat + k := Component.byte.inj e
    exact ⟨x, .inl ⟨rfl, by omega, by omega⟩⟩
  case stm x =>
    obtain ⟨k, hk, e⟩ := h
    obtain rfl : a = s.i.toNat + k := Component.byte.inj e
    exact ⟨x, .inr ⟨rfl, by omega, by omega⟩⟩
  all_goals simp [touches] at h

end Machine

/-- Settles O36: only an instruction touches a byte, and only the two stores are among the classes that do. -/
theorem memoryChangesOnlyByStores : Obligations.MemoryChangesOnlyByStores := by
  intro s t a hstep hne
  rcases step_program_cases hstep with ⟨hsame, -⟩ | ⟨-, rfl⟩ | ⟨hserves, -, hexec⟩
  · refine absurd ?_ hne
    rw [State.readByte, hsame.config, hsame.mem]
    rfl
  · simp at hne
  · have htouches : touches (resolve s.fetchedWord) s.dropTurn (.byte a) :=
      by_contra fun hno => hne (exec_same hexec (c := .byte a) hno (by simp))
    obtain ⟨x, hx⟩ := touches_byte htouches
    exact ⟨hserves, x, hx⟩

/-- Settles O47: an event moves the mode to `Stopped` at most, the fetch fault and an instruction to `Faulted` at most. -/
theorem modeTransitions : Obligations.ModeTransitions := by
  intro s t hstep
  rcases step_program_cases hstep with ⟨hsame, hmode⟩ | ⟨hserves, rfl⟩ | ⟨hserves, -, hexec⟩
  · exact ⟨hsame.config, hmode.imp_right .inl⟩
  · exact ⟨rfl, .inr (.inr ⟨rfl, hserves, rfl⟩)⟩
  · obtain ⟨hconfig, ⟨hmode, -⟩ | ⟨hmode, hfr⟩⟩ := exec_mode hexec
    · exact ⟨hconfig, .inl hmode⟩
    · exact ⟨hconfig, .inr (.inr ⟨hmode, hserves, hfr⟩)⟩

end Sys2Proof
end

section
/-! PROOFS. Runs of several steps: frames between two instructions (E4), and a press and an instruction in either order (E5). -/

namespace Sys2Proof

open Machine

namespace Machine

/-! ### Runs -/

theorem step_of_run {k : Nat} {s a : State} (h : Host.Core.run core (k + 1) s = .next a) :
    ∃ t, step s = .next t ∧ Host.Core.run core k t = .next a := by
  cases hm : s.mode.terminal with
  | false =>
    obtain ⟨t, ht⟩ := step_next hm
    exact ⟨t, ht, (run_step k ht).symm.trans h⟩
  | true =>
    obtain ⟨f, hf⟩ := step_terminal hm
    have hf' : core.step s = .fault f := hf
    simp only [Host.Core.run, hf'] at h
    cases h

theorem eq_of_run_none {s a : State} (h : Host.Core.run core 0 s = .next a) : s = a := Host.Outcome.next.inj h

/-! ### States that differ in the settled turns and the output trace only -/

/-- The state without its settled turns and its output trace. -/
def State.quiet (s : State) : State := { s with turns := [], trace := [] }

theorem eq_withUnread_of_quiet {s t : State} (h : s.quiet = t.quiet) :
    ∃ ts tr, t = s.withUnread ts s.input s.st tr :=
  ⟨t.turns, t.trace, congrArg (fun u : State => { u with turns := t.turns, trace := t.trace }) h.symm⟩

theorem core_eq_of_quiet {s t : State} (h : s.quiet = t.quiet) (hturns : s.turns = t.turns) : s.core = t.core := by
  have hset : s.quiet.setTurns s.turns = t.quiet.setTurns t.turns := by rw [h, hturns]
  exact hset

/-- R163, R168: serving an instruction-ready turn depends on neither the settled turns nor the trace, and leaves the turns. -/
theorem serve_instr_quiet {s t a b : State} (h : s.quiet = t.quiet) (ha : serve .instrReady s = .next a)
    (hb : serve .instrReady t = .next b) : a.quiet = b.quiet ∧ a.turns = s.turns ∧ b.turns = t.turns := by
  obtain ⟨ts, tr, rfl⟩ := eq_withUnread_of_quiet h
  by_cases hkw : s.kw.isSome = true
  · obtain rfl : s = a := Host.Outcome.next.inj ((if_pos hkw).symm.trans ha)
    obtain rfl := Host.Outcome.next.inj ((if_pos hkw).symm.trans hb)
    exact ⟨rfl, rfl, rfl⟩
  by_cases hpc : s.pc.toNat > 0xFFE
  · obtain rfl := Host.Outcome.next.inj (((if_neg hkw).trans (if_pos hpc)).symm.trans ha)
    obtain rfl := Host.Outcome.next.inj (((if_neg hkw).trans (if_pos hpc)).symm.trans hb)
    exact ⟨rfl, rfl, rfl⟩
  · have ha' : exec (resolve s.fetchedWord) s = .next a := ((if_neg hkw).trans (if_neg hpc)).symm.trans ha
    have hb' : exec (resolve s.fetchedWord) (s.withUnread ts s.input s.st tr) = .next b :=
      ((if_neg hkw).trans (if_neg hpc)).symm.trans hb
    obtain ⟨u, c, tr', hu, hu', hturns, hinput, hst, -⟩ := exec_withUnread (i := resolve s.fetchedWord) (ts := ts) (b := s.st)
      (tr := tr) (.inl (rfl : s.input = s.input))
    obtain rfl := Host.Outcome.next.inj (hu.symm.trans ha')
    obtain rfl := Host.Outcome.next.inj (hu'.symm.trans hb')
    refine ⟨?_, hturns, rfl⟩
    rw [hst rfl, ← hinput]
    rfl

theorem step_instr_quiet {s t a b : State} {rest rest' : List Turn} (h : s.quiet = t.quiet) (hs : s.turns = .instrReady :: rest)
    (ht : t.turns = .instrReady :: rest') (ha : step s = .next a) (hb : step t = .next b) :
    a.quiet = b.quiet ∧ a.turns = rest ∧ b.turns = rest' := by
  rw [step_settled (step_cases ha).1 hs] at ha
  rw [step_settled (step_cases hb).1 ht] at hb
  exact serve_instr_quiet (s := s.setTurns rest) (t := t.setTurns rest') h ha hb

theorem step_frame_quiet {s a : State} {rest : List Turn} (hs : s.turns = .frameReady :: rest) (ha : step s = .next a) :
    a.quiet = s.quiet ∧ a.turns = rest := by
  rw [step_settled (step_cases ha).1 hs] at ha
  obtain rfl := Host.Outcome.next.inj ha
  exact ⟨rfl, rfl⟩

end Machine

/-- Settles O50: the two runs agree but for turns and trace after the first instruction, the frames keep that, and so does the
second instruction, after which the same turns are left. -/
theorem framesDoNotMatter : Obligations.FramesDoNotMatter := by
  intro s a b rest hlong hshort
  obtain ⟨a₁, ha₁, hlong⟩ := step_of_run hlong
  obtain ⟨a₂, ha₂, hlong⟩ := step_of_run hlong
  obtain ⟨a₃, ha₃, hlong⟩ := step_of_run hlong
  obtain ⟨a₄, ha₄, hlong⟩ := step_of_run hlong
  obtain ⟨b₁, hb₁, hshort⟩ := step_of_run hshort
  obtain ⟨b₂, hb₂, hshort⟩ := step_of_run hshort
  obtain rfl := eq_of_run_none hlong
  obtain rfl := eq_of_run_none hshort
  have hstart : (s.setTurns (.instrReady :: .frameReady :: .frameReady :: .instrReady :: rest)).quiet =
    (s.setTurns (.instrReady :: .instrReady :: rest)).quiet := rfl
  obtain ⟨hfirst, hta₁, htb₁⟩ := step_instr_quiet hstart rfl rfl ha₁ hb₁
  obtain ⟨hframe₂, hta₂⟩ := step_frame_quiet hta₁ ha₂
  obtain ⟨hframe₃, hta₃⟩ := step_frame_quiet hta₂ ha₃
  obtain ⟨hsecond, hta₄, htb₂⟩ := step_instr_quiet (hframe₃.trans (hframe₂.trans hfirst)) hta₃ htb₁ ha₄ hb₂
  exact core_eq_of_quiet hsecond (hta₄.trans htb₂.symm)

/-! ### The input race -/

namespace Machine

/-- A settled instruction-ready turn on a `Ex9E` that is served: `PC` as the key test says, nothing else that the next turn needs.
-/
theorem step_skp {s : State} {x : RegIdx} {rest : List Turn} (hm : s.mode.terminal = false) (hkw : s.kw = none)
    (hpc : s.pc.toNat ≤ 0xFFE) (hword : resolve s.fetchedWord = .skp x) (hturns : s.turns = .instrReady :: rest) :
    ∃ t, step s = .next t ∧ t.pc = (if keyPressed s x then s.pc + 4#16 else s.pc + 2#16) ∧ t.mode = s.mode ∧ t.kw = s.kw
      ∧ t.turns = rest ∧ t.inputQueue = s.inputQueue := by
  have hskip : exec (.skp x) (s.setTurns rest) = .next ((s.setTurns rest).advance.skipIf (keyPressed s x)).decrementTimers := rfl
  rw [State.skipIf_advance] at hskip
  rw [step_exec ⟨hm, hkw, nextTurn_cons hturns⟩ hpc, hword, dropTurn_settled hturns]
  exact ⟨_, hskip, rfl, rfl, rfl, rfl, rfl⟩

/-- A settled input-ready turn with a report waiting and no hold: the report goes to `input`, and the program stays where it is.
-/
theorem step_input_settled {s : State} {report : Option Key} {reports : List (Option Key)} {rest : List Turn}
    (hm : s.mode.terminal = false) (hkw : s.kw = none) (hturns : s.turns = .inputReady :: rest)
    (hqueue : s.inputQueue = report :: reports) :
    ∃ t, step s = .next t ∧ t.pc = s.pc ∧ t.mode = s.mode ∧ t.kw = s.kw ∧ t.turns = rest ∧ t.input = report
      ∧ t.fetchedWord = s.fetchedWord ∧ ∀ y, t.getV y = s.getV y := by
  have hstep := step_input hm (nextTurn_cons hturns) hqueue
  rw [dropTurn_settled hturns, handleInput_none (s := (s.setTurns rest).setInputQueue reports) hkw] at hstep
  exact ⟨_, hstep, rfl, rfl, rfl, rfl, rfl, fetchedWord_congr rfl rfl rfl, fun _ => rfl⟩

end Machine

/-- Settles O51: the skip sees the key where the report has been served before it, and an empty `input` where not. -/
theorem inputRaceHasBothOutcomes : Obligations.InputRaceHasBothOutcomes := by
  intro s x k hm hkw hpc hword hkey hinput hqueue
  constructor
  · obtain ⟨t, ht, htpc, htm, htkw, htturns, htin, htword, htv⟩ :=
      step_input_settled (s := s.setTurns [.inputReady, .instrReady]) hm hkw rfl hqueue
    obtain ⟨u, hu, hupc, -⟩ := step_skp (x := x) (htm ▸ hm) (htkw.trans hkw) (htpc ▸ hpc) ((congrArg resolve htword).trans hword)
      htturns
    have hpressed : keyPressed t x = true :=
      (keyPressed_iff t x).2 ⟨k, htin, hkey.symm.trans (congrArg BitVec.toNat (htv x).symm)⟩
    rw [hpressed, htpc] at hupc
    exact ⟨u, (run_step 1 ht).trans (run_step 0 hu), hupc⟩
  · obtain ⟨t, ht, htpc, htm, htkw, htturns, htqueue⟩ :=
      step_skp (s := s.setTurns [.instrReady, .inputReady]) hm hkw hpc hword rfl
    obtain ⟨u, hu, hupc, -⟩ := step_input_settled (htm ▸ hm) (htkw.trans hkw) htturns (htqueue.trans hqueue)
    have hnot : keyPressed (s.setTurns [.instrReady, .inputReady]) x = false := by
      rw [keyPressed, State.setTurns_input, hinput]
    rw [hnot] at htpc
    exact ⟨u, (run_step 1 ht).trans (run_step 0 hu), hupc.trans htpc⟩

end Sys2Proof
end

section
/-! PROOFS. The invariant (10_state.md R26, R89): its part about the program is kept by every instruction, and the rest by every
step; reset and boot (70_reset_and_hazards.md). -/

namespace Sys2Proof

open Machine

namespace Machine

/-! ### The program's part of the invariant -/

/-- The part of the invariant that is about the program's own state. -/
structure State.Bounded (s : State) : Prop where
  index : s.i.toNat ≤ 0xFFF
  counter : s.pc.toNat ≤ 0x10FE
  slots : ∀ k : Fin 16, k.val < s.sp.val → (s.slot k).toNat ≤ 0x1000
  memory : Memory.wf s.config s.mem
  bitmap : Bitmap.wf s.config s.fb

theorem State.Inv.bounded {s : State} (h : s.Inv) : s.Bounded := ⟨h.index, h.counter, h.slots, h.memory, h.bitmap⟩

theorem State.Bounded.inv {s : State} (h : s.Bounded) (hfr : s.mode = .faulted ↔ s.fr.isSome = true)
    (hmode : s.mode.terminal = false → s.mode = restingMode s.config) : s.Inv :=
  ⟨h.index, h.counter, h.slots, h.memory, h.bitmap, hfr, hmode⟩

theorem State.Bounded.of_sameProgram {s t : State} (hs : s.Bounded) (h : SameProgram s t) : t.Bounded where
  index := h.i ▸ hs.index
  counter := h.pc ▸ hs.counter
  slots := by
    unfold State.slot
    rw [h.sp, h.stack]
    exact hs.slots
  memory := by rw [h.config, h.mem]; exact hs.memory
  bitmap := by rw [h.config, h.fb]; exact hs.bitmap

theorem State.Bounded.setPc {s : State} (hs : s.Bounded) {a : Word} (ha : a.toNat ≤ 0x10FE) : (s.setPc a).Bounded :=
  ⟨hs.index, ha, hs.slots, hs.memory, hs.bitmap⟩

theorem State.Bounded.setI {s : State} (hs : s.Bounded) {a : Word} (ha : a.toNat ≤ 0xFFF) : (s.setI a).Bounded :=
  ⟨ha, hs.counter, hs.slots, hs.memory, hs.bitmap⟩

theorem State.Bounded.setFb {s : State} (hs : s.Bounded) {fb : Bitmap} (hfb : Bitmap.wf s.config fb) : (s.setFb fb).Bounded :=
  ⟨hs.index, hs.counter, hs.slots, hs.memory, hfb⟩

theorem State.Bounded.setV {s : State} (hs : s.Bounded) (x : RegIdx) (b : Byte) : (s.setV x b).Bounded :=
  ⟨hs.index, hs.counter, hs.slots, hs.memory, hs.bitmap⟩

theorem State.Bounded.setFlag {s : State} (hs : s.Bounded) (flag : Bool) : (s.setFlag flag).Bounded := hs.setV _ _

theorem State.Bounded.emit {s : State} (hs : s.Bounded) (e : Output) : (s.emit e).Bounded :=
  ⟨hs.index, hs.counter, hs.slots, hs.memory, hs.bitmap⟩

/-- R89: what is pushed is the `PC` the advance has left of a fetch inside memory. -/
theorem State.Bounded.push {s : State} (hs : s.Bounded) (hpc : s.pc.toNat ≤ 0x1000) (room : s.sp.val < 16) :
    (s.push room).Bounded where
  index := hs.index
  counter := hs.counter
  slots k hk := by
    have hk' : k.val < s.sp.val + 1 := hk
    rw [State.slot_push]
    split
    · exact hpc
    · exact hs.slots k (by omega)
  memory := hs.memory
  bitmap := hs.bitmap

/-- R89: what is popped is an occupied slot's value. -/
theorem State.Bounded.pop {s : State} (hs : s.Bounded) (occupied : 0 < s.sp.val) : (s.pop occupied).Bounded where
  index := hs.index
  counter := (hs.slots ⟨s.sp.val - 1, by omega⟩ (Nat.sub_lt occupied Nat.one_pos)).trans (by decide)
  slots k hk := by
    have hk' : k.val < s.sp.val - 1 := hk
    exact hs.slots k (by omega)
  memory := hs.memory
  bitmap := hs.bitmap

theorem State.Bounded.writeBytes {s : State} (hs : s.Bounded) {a : Nat} {bs : List Byte} (ha : a + bs.length ≤ memorySize) :
    (s.writeBytes a bs).Bounded where
  index := by simpa using hs.index
  counter := by simpa using hs.counter
  slots := by simpa using hs.slots
  memory := by simpa using State.wf_writeBytes bs ha hs.memory
  bitmap := by simpa using hs.bitmap

theorem State.Bounded.loadRegisters {s : State} (hs : s.Bounded) (k : Nat) (bs : List Byte) : (s.loadRegisters k bs).Bounded where
  index := by simpa using hs.index
  counter := by simpa using hs.counter
  slots := by simpa using hs.slots
  memory := by simpa using hs.memory
  bitmap := by simpa using hs.bitmap

theorem State.Bounded.decrementTimers {s : State} (hs : s.Bounded) : s.decrementTimers.Bounded :=
  ⟨hs.index, hs.counter, hs.slots, hs.memory, hs.bitmap⟩

/-- R203: the entry to a fatal fault leaves the program's own state alone. -/
theorem State.Bounded.fault {s : State} (hs : s.Bounded) (r : FaultRecord) : ((s.setFr r).setMode .faulted).Bounded :=
  ⟨hs.index, hs.counter, hs.slots, hs.memory, hs.bitmap⟩

theorem State.Bounded.dropTurn {s : State} (hs : s.Bounded) : s.dropTurn.Bounded :=
  hs.of_sameProgram ⟨rfl, rfl, rfl, rfl, rfl, rfl, rfl, rfl⟩

/-! ### The bounds of the operands -/

theorem add_two_toNat_le {a : Word} {n : Nat} (h : a.toNat ≤ n) : (a + 2#16).toNat ≤ n + 2 := by
  rw [BitVec.toNat_add]
  exact (Nat.mod_le _ _).trans (Nat.add_le_add_right h 2)

theorem absoluteTarget_le (nnn : Addr) : (absoluteTarget nnn).toNat ≤ 0xFFF :=
  absoluteTarget_toNat nnn ▸ Nat.le_of_lt_succ nnn.isLt

/-- R89: `Bnnn` reaches the highest `PC` there is. -/
theorem offsetTarget_le (s : State) (nnn : Addr) : (offsetTarget s nnn).toNat ≤ 0x10FE := by
  have hn := nnn.isLt
  have hv := (s.getV 0x0#4).isLt
  rw [offsetTarget_eq_ofNat, BitVec.toNat_ofNat]
  omega

theorem addToIndex_le (i : Word) (b : Byte) : (addToIndex i b).toNat ≤ 0xFFF :=
  addToIndex_toNat i b ▸ Nat.le_of_lt_succ (Nat.mod_lt _ (by decide))

theorem glyphAddress_le (b : Byte) : (Machine.glyphAddress b).toNat ≤ 0xFFF := by
  have hlt := b.isLt
  rw [glyphAddress_toNat]
  omega

/-! ### Every instruction keeps it -/

/-- A completed dispatch of a fetch inside memory keeps the program's part of the invariant. -/
theorem dispatch_bounded {i : Instr} {s : State} (hs : s.Bounded) (hpc : s.pc.toNat ≤ 0xFFE) (hcause : faultCause i s = none) :
    ∃ u : State, exec i s = .next u.decrementTimers ∧ u.Bounded := by
  have hnext : s.advance.pc.toNat ≤ 0x1000 := add_two_toNat_le hpc
  have hadv : s.advance.Bounded := hs.setPc (hnext.trans (by decide))
  cases i
  case cls => exact ⟨_, rfl, (hadv.emit _).setFb (Bitmap.wf_blank _)⟩
  case sys | unrecognized => exact ⟨_, rfl, hadv.emit _⟩
  case ret => exact ⟨_, exec_ret_pops (faultCause_ret_none.1 hcause), hadv.pop _⟩
  case call nnn =>
    exact ⟨_, exec_call_pushes (faultCause_call_none.1 hcause),
      (hadv.push hnext _).setPc ((absoluteTarget_le nnn).trans (by decide))⟩
  case ldImm | addImm | ldReg | orReg | andReg | xorReg | ldVxDt => exact ⟨_, rfl, hadv.setV _ _⟩
  case addReg | sub | subr => exact ⟨_, rfl, (hadv.setV _ _).setFlag _⟩
  case shr | shl => exact ⟨_, rfl, (hadv.setFlag _).setV _ _⟩
  case rnd =>
    have hdrawn : s.advance.consumeDraw.Bounded := ⟨hadv.index, hadv.counter, hadv.slots, hadv.memory, hadv.bitmap⟩
    exact ⟨_, rfl, hdrawn.setV _ _⟩
  case ldI nnn => exact ⟨_, rfl, hadv.setI (absoluteTarget_le nnn)⟩
  case addI => exact ⟨_, rfl, hadv.setI (addToIndex_le _ _)⟩
  case ldF => exact ⟨_, rfl, hadv.setI (glyphAddress_le _)⟩
  case drw x y n =>
    exact ⟨_, exec_drw_draws (faultCause_drw_none.1 hcause), ((hadv.emit _).setFb (wf_drawSprite _ _ _ hs.bitmap)).setFlag _⟩
  case bcd x =>
    have hfits := faultCause_bcd_none.1 hcause
    have hrange : elementAddress s 0 + (bcdDigits (s.getV x)).length ≤ memorySize := by
      simp only [elementAddress, bcdDigits, List.length_cons, List.length_nil, memorySize]
      omega
    exact ⟨_, exec_bcd_stores hfits, hadv.writeBytes hrange⟩
  case stm x =>
    have hfits := faultCause_stm_none.1 hcause
    have hrange : elementAddress s 0 + (s.registersFrom 0 (registerCount x)).length ≤ memorySize := by
      simp only [elementAddress, State.registersFrom_length, registerCount, memorySize]
      omega
    exact ⟨_, exec_stm_stores hfits, hadv.writeBytes hrange⟩
  case ldm x => exact ⟨_, exec_ldm_loads (faultCause_ldm_none.1 hcause), hadv.loadRegisters _ _⟩
  case jp nnn => exact ⟨_, rfl, hadv.setPc ((absoluteTarget_le nnn).trans (by decide))⟩
  case jpV0 nnn => exact ⟨_, rfl, hadv.setPc (offsetTarget_le s nnn)⟩
  case seImm | sneImm | seReg | sneReg | skp | sknp =>
    refine ⟨_, rfl, ?_⟩
    rw [State.skipIf_eq]
    refine hadv.setPc ?_
    split
    · exact (add_two_toNat_le hnext).trans (by decide)
    · exact hnext.trans (by decide)
  case ldVxK | ldDtVx | ldStVx => exact ⟨_, rfl, hadv.index, hadv.counter, hadv.slots, hadv.memory, hadv.bitmap⟩

theorem exec_bounded {i : Instr} {s t : State} (hs : s.Bounded) (hpc : s.pc.toNat ≤ 0xFFE) (h : exec i s = .next t) :
    t.Bounded := by
  cases hcause : faultCause i s with
  | some cause =>
    rw [exec_of_faultCause hcause] at h
    obtain rfl := Host.Outcome.next.inj h
    have hadv : s.advance.Bounded := hs.setPc ((add_two_toNat_le hpc).trans (by decide))
    exact hadv.fault _
  | none =>
    obtain ⟨u, hu, hbounded⟩ := dispatch_bounded hs hpc hcause
    obtain rfl := Host.Outcome.next.inj (hu.symm.trans h)
    exact hbounded.decrementTimers

end Machine

/-- Settles O59: an event keeps the program and moves the mode to `Stopped` at most, the fetch fault keeps the program, and an
instruction keeps its part of the invariant; both faults write the record with the mode. -/
theorem invariantIsKeptByEveryStep : Obligations.InvariantIsKeptByEveryStep := by
  intro s t hs hstep
  have hm := (step_cases hstep).1
  have hnofault : s.mode ≠ .faulted := fun e => by simp [e, Mode.terminal] at hm
  rcases step_program_cases hstep with ⟨hsame, hmode⟩ | ⟨-, rfl⟩ | ⟨-, hpc, hexec⟩
  · refine (hs.bounded.of_sameProgram hsame).inv ?_ ?_
    · rw [hsame.fr, ← hs.faultRecord]
      rcases hmode with hmode | ⟨hmode, -⟩
      · rw [hmode]
      · simp [hmode, hnofault]
    · rcases hmode with hmode | ⟨hmode, -⟩
      · rw [hmode, hsame.config]
        exact hs.operation
      · simp [hmode, Mode.terminal]
  · exact (hs.bounded.dropTurn.fault _).inv (by simp) (by simp [Mode.terminal])
  · have hbounded := exec_bounded hs.bounded.dropTurn hpc hexec
    obtain ⟨hconfig, ⟨hmode, hfr⟩ | ⟨hmode, hfr⟩⟩ := exec_mode hexec
    · exact hbounded.inv (by rw [hmode, hfr]; exact hs.faultRecord) (by rw [hmode, hconfig]; exact hs.operation)
    · exact hbounded.inv (by simp [hmode, hfr]) (by simp [hmode, Mode.terminal])

end Sys2Proof
end

section
/-! PROOFS. Reset and boot (10_state.md R27, 70_reset_and_hazards.md R232 to R234). -/

namespace Sys2Proof

open Machine

namespace Machine

/-! ### Memory that nothing has written -/

theorem unlistedByte_font {c : Config} {k : Nat} (hk : k < 80) : unlistedByte c k = c.font[k] := dif_pos hk

theorem unlistedByte_zero (c : Config) {a : Nat} (ha : 80 ≤ a) : unlistedByte c a = 0x00#8 := dif_neg (Nat.not_lt.2 ha)

theorem reset_bounded : State.reset.Bounded where
  index := by decide
  counter := by decide
  slots _ hk := absurd hk (Nat.not_lt_zero _)
  memory := wf_reset_memory
  bitmap := Bitmap.wf_blank _

end Machine

/-- Settles O58: at reset every bound is met and memory and bitmap list nothing. -/
theorem invariantHoldsAtReset : Obligations.InvariantHoldsAtReset :=
  reset_bounded.inv (by decide) fun _ => rfl

/-- Settles O55: the components are the reset values, and a byte nothing has written is the font's or zero. -/
theorem resetState : Obligations.ResetState := by
  refine ⟨rfl, rfl, rfl, rfl, rfl, rfl, rfl, rfl, rfl, fun x => ?_, fun k => ?_, fun r c => rfl, rfl, rfl, fun k => ?_,
    fun a ha => unlistedByte_zero _ ha⟩
  · simp [State.getV, State.reset]
  · simp [State.slot, State.reset]
  · exact unlistedByte_font k.isLt

namespace Machine

/-! ### What boot leaves -/

/-- The parameters of a boot with another font. -/
def configWithFont (c : Config) (font : List Byte) (h : font.length = 80) : Config :=
  { c with font := ⟨font.toArray, by simpa using h⟩ }

/-- R232: the machine a successful boot leaves. -/
def booted (c : Config) (font program : List Byte) (h : font.length = 80) : State :=
  (({ State.reset with config := configWithFont c font h } : State).writeBytes 0x200 program).setMode (restingMode c)

theorem boot_eq_booted {c : Config} {font program : List Byte} (h : font.length = 80) (hp : 0x200 + program.length ≤ 4096) :
    boot c font program = .ok (booted c font program h) := by
  have hsize : ¬ entryPoint.toNat + program.length > memorySize := Nat.not_lt.2 hp
  simp only [boot, loadSprites, h, dif_pos, loadProgram, hsize, if_false]
  rfl

theorem boot_initError {c : Config} {font : List Byte} (program : List Byte) (h : font.length ≠ 80) :
    boot c font program = .error .initError := by
  simp [boot, loadSprites, h]

theorem boot_programTooLarge {c : Config} {font program : List Byte} (h : font.length = 80) (hp : 0x200 + program.length > 4096) :
    boot c font program = .error .programTooLarge := by
  have hsize : entryPoint.toNat + program.length > memorySize := hp
  simp [boot, loadSprites, h, loadProgram, hsize]

theorem booted_of_boot {c : Config} {font program : List Byte} {s : State} (h : boot c font program = .ok s) :
    ∃ hf, 0x200 + program.length ≤ 4096 ∧ s = booted c font program hf := by
  by_cases hf : font.length = 80
  · by_cases hp : 0x200 + program.length ≤ 4096
    · exact ⟨hf, hp, (Except.ok.inj ((boot_eq_booted hf hp).symm.trans h)).symm⟩
    · rw [boot_programTooLarge hf (Nat.not_le.1 hp)] at h
      cases h
  · rw [boot_initError program hf] at h
    cases h

section

variable (c : Config) {font : List Byte} (program : List Byte) (hf : font.length = 80)

/-- R232, R234: the image stands from `0x200` on and every other byte is the reset content around the given font. -/
theorem readByte_booted (a : Nat) :
    (booted c font program hf).readByte a =
      if h : 0x200 ≤ a ∧ a < 0x200 + program.length then program[a - 0x200] else unlistedByte (configWithFont c font hf) a :=
  State.readByte_writeBytes program _ 0x200 a

theorem readByte_booted_image {k : Nat} {b : Byte} (hk : program[k]? = some b) :
    (booted c font program hf).readByte (0x200 + k) = b := by
  obtain ⟨hlt, rfl⟩ := List.getElem?_eq_some_iff.1 hk
  rw [readByte_booted, dif_pos ⟨Nat.le_add_right _ _, Nat.add_lt_add_left hlt _⟩]
  simp

theorem readByte_booted_font {k : Nat} {b : Byte} (hk : font[k]? = some b) : (booted c font program hf).readByte k = b := by
  obtain ⟨hlt, rfl⟩ := List.getElem?_eq_some_iff.1 hk
  rw [readByte_booted, dif_neg (by omega), unlistedByte_font (by omega)]
  rfl

theorem readByte_booted_zero {a : Nat} (ha : 80 ≤ a) (hout : a < 0x200 ∨ 0x200 + program.length ≤ a) :
    (booted c font program hf).readByte a = 0#8 := by
  rw [readByte_booted, dif_neg (by omega), unlistedByte_zero _ ha]

theorem booted_inv (hp : 0x200 + program.length ≤ 4096) : (booted c font program hf).Inv := by
  have hempty : ({ State.reset with config := configWithFont c font hf } : State).Bounded :=
    ⟨reset_bounded.index, reset_bounded.counter, reset_bounded.slots, Memory.wf_nil _, Bitmap.wf_blank _⟩
  have hloaded := hempty.writeBytes (a := 0x200) (bs := program) hp
  refine State.Bounded.inv ⟨hloaded.index, hloaded.counter, hloaded.slots, hloaded.memory, hloaded.bitmap⟩ ?_ fun _ => ?_
  · have hfr : (booted c font program hf).fr = none := State.writeBytes_fr program _ 0x200
    rw [hfr]
    unfold booted restingMode
    cases c.debugMode <;> simp
  · have hconfig : (booted c font program hf).config = configWithFont c font hf := State.writeBytes_config program _ 0x200
    rw [hconfig]
    rfl

theorem booted_frame :
    Unchanged (fun d => d = .mode ∨ d = .config ∨ ∃ a, d = .byte a) State.reset (booted c font program hf) := by
  intro d hd
  have hconfig : d.same State.reset { State.reset with config := configWithFont c font hf } := by
    cases d
    case config => exact absurd (.inr (.inl rfl)) hd
    case byte a => exact absurd (.inr (.inr ⟨a, rfl⟩)) hd
    all_goals rfl
  exact (hconfig.trans (Component.same_writeBytes _ 0x200 program fun k _ e => hd (.inr (.inr ⟨_, e⟩)))).trans
    (Component.same_setMode (fun e => hd (.inl e)) _ _)

end

end Machine

/-- Settles O56: boot checks the font's length and then the image's, and past both checks loads them. -/
theorem bootLoadsOrFails : Obligations.BootLoadsOrFails := by
  refine fun c font program => ⟨boot_initError program, boot_programTooLarge, fun hf hp => ?_⟩
  exact ⟨_, boot_eq_booted hf hp, fun k b => readByte_booted_font c program hf, fun k b => readByte_booted_image c program hf,
    fun a ha => readByte_booted_zero c program hf (by omega) (.inr ha)⟩

/-- Settles O57: a boot that succeeds leaves the reset state with the image written, the font in the parameters and the mode set.
-/
theorem bootLeavesTheResetState : Obligations.BootLeavesTheResetState := by
  intro c font program s hs
  obtain ⟨hf, hp, rfl⟩ := booted_of_boot hs
  have hconfig : (booted c font program hf).config = configWithFont c font hf := State.writeBytes_config program _ 0x200
  exact ⟨State.writeBytes_pc program _ 0x200, booted_inv c program hf hp, rfl, (congrArg Config.displayW hconfig :),
    (congrArg Config.displayH hconfig :), fun k b => readByte_booted_font c program hf,
    fun a => readByte_booted_zero c program hf, booted_frame c program hf⟩

end Sys2Proof
end

section
/-! PROOFS. Drawing (46_draw.md R140 to R146). A sprite of at most 15 bytes is a list of pixels without repetition, on which the
blit is a fold of single toggles; what the fold does to the picture and to the collision answer then needs no loop of the
renderer. -/

namespace Sys2Proof

open Machine

namespace Machine

/-! ### Toggling a list of pixels -/

/-- R143: toggle one pixel, and note whether it went from set to unset. -/
def togglePixel (acc : Blit) (p : Nat × Nat) : Blit :=
  (Bitmap.toggle acc.1 p.1 p.2, acc.2 || Bitmap.isSet acc.1 p.1 p.2)

theorem isSet_togglePixel_ne (acc : Blit) {p : Nat × Nat} {r c : Nat} (h : (r, c) ≠ p) :
    Bitmap.isSet (togglePixel acc p).1 r c = Bitmap.isSet acc.1 r c := by
  have hne : ¬ (r = p.1 ∧ c = p.2) := fun e => h (Prod.ext e.1 e.2)
  rw [togglePixel, Bitmap.isSet_toggle, if_neg hne]

theorem isSet_togglePixel_same (acc : Blit) (r c : Nat) :
    Bitmap.isSet (togglePixel acc (r, c)).1 r c = !Bitmap.isSet acc.1 r c := by
  rw [togglePixel, Bitmap.isSet_toggle, if_pos ⟨rfl, rfl⟩]

/-- Pixels without repetition are flipped once each. -/
theorem isSet_foldl_togglePixel {ps : List (Nat × Nat)} (hps : ps.Nodup) (acc : Blit) (r c : Nat) :
    Bitmap.isSet (ps.foldl togglePixel acc).1 r c = (Bitmap.isSet acc.1 r c ^^ decide ((r, c) ∈ ps)) := by
  induction ps generalizing acc with
  | nil => simp
  | cons p ps ih =>
    obtain ⟨hp, hps⟩ := List.nodup_cons.1 hps
    rw [List.foldl_cons, ih hps]
    by_cases h : (r, c) = p
    · subst h
      simp [isSet_togglePixel_same, hp]
    · simp [isSet_togglePixel_ne acc h, h]

/-- Pixels without repetition collide where one of them was set before any was flipped. -/
theorem foldl_togglePixel_collides {ps : List (Nat × Nat)} (hps : ps.Nodup) (acc : Blit) :
    (ps.foldl togglePixel acc).2 = true ↔ acc.2 = true ∨ ∃ p ∈ ps, Bitmap.isSet acc.1 p.1 p.2 = true := by
  induction ps generalizing acc with
  | nil => simp
  | cons p ps ih =>
    obtain ⟨hp, hps⟩ := List.nodup_cons.1 hps
    have hlater : ∀ q ∈ ps, Bitmap.isSet (togglePixel acc p).1 q.1 q.2 = Bitmap.isSet acc.1 q.1 q.2 := fun q hq =>
      isSet_togglePixel_ne acc fun e => hp (e ▸ hq)
    have hlater' : (∃ q ∈ ps, Bitmap.isSet (togglePixel acc p).1 q.1 q.2 = true) ↔ ∃ q ∈ ps, Bitmap.isSet acc.1 q.1 q.2 = true :=
      exists_congr fun q => and_congr_right fun hq => by rw [hlater q hq]
    rw [List.foldl_cons, ih hps, hlater', List.exists_mem_cons_iff, ← or_assoc]
    simp [togglePixel]

/-! ### The pixels of a sprite -/

/-- R141, R143: the pixels of one sprite row. -/
def rowPixels (cfg : Config) (vx vy : Byte) (r : Nat) (b : Byte) : List (Nat × Nat) :=
  ((List.range 8).filter (spriteBit b)).map (fun c => (pixelRow cfg vy r, pixelColumn cfg vx c))

/-- R143: the pixels of the sprite rows from `r` on. -/
def spritePixels (cfg : Config) (vx vy : Byte) : Nat → List Byte → List (Nat × Nat)
  | _, [] => []
  | r, b :: rest => rowPixels cfg vx vy r b ++ spritePixels cfg vx vy (r + 1) rest

theorem drawRow_eq_foldl (cfg : Config) (vx vy : Byte) (r : Nat) (b : Byte) (acc : Blit) :
    drawRow cfg vx vy r b acc = (rowPixels cfg vx vy r b).foldl togglePixel acc := by
  rw [rowPixels, List.foldl_map, List.foldl_filter]
  rfl

theorem drawRows_eq_foldl (cfg : Config) (vx vy : Byte) (bytes : List Byte) (r : Nat) (acc : Blit) :
    drawRows cfg vx vy r bytes acc = (spritePixels cfg vx vy r bytes).foldl togglePixel acc := by
  induction bytes generalizing r acc with
  | nil => rfl
  | cons b rest ih => rw [drawRows, ih, drawRow_eq_foldl, spritePixels, List.foldl_append]

theorem drawSprite_eq_foldl (cfg : Config) (fb : Bitmap) (bytes : List Byte) (vx vy : Byte) :
    drawSprite cfg fb bytes vx vy = (spritePixels cfg vx vy 0 bytes).foldl togglePixel (fb, false) :=
  drawRows_eq_foldl cfg vx vy bytes 0 (fb, false)

theorem mem_rowPixels {cfg : Config} {vx vy : Byte} {r : Nat} {b : Byte} {p : Nat × Nat} :
    p ∈ rowPixels cfg vx vy r b ↔ ∃ j < 8, b.getLsbD (7 - j) = true ∧ p = (pixelRow cfg vy r, pixelColumn cfg vx j) := by
  simp only [rowPixels, spriteBit, List.mem_map, List.mem_filter, List.mem_range, Bool.and_eq_true, decide_eq_true_eq]
  exact exists_congr fun j => ⟨fun ⟨⟨hj, _, hb⟩, e⟩ => ⟨hj, hb, e.symm⟩, fun ⟨hj, hb, e⟩ => ⟨⟨hj, hj, hb⟩, e.symm⟩⟩

theorem mem_spritePixels {cfg : Config} {vx vy : Byte} {bytes : List Byte} {r : Nat} {p : Nat × Nat} :
    p ∈ spritePixels cfg vx vy r bytes ↔ ∃ k b, bytes[k]? = some b ∧ p ∈ rowPixels cfg vx vy (r + k) b := by
  induction bytes generalizing r with
  | nil => simp [spritePixels]
  | cons b rest ih =>
    rw [spritePixels, List.mem_append, ih]
    constructor
    · rintro (h | ⟨k, b', hb', h⟩)
      · exact ⟨0, b, rfl, h⟩
      · exact ⟨k + 1, b', hb', by rwa [Nat.add_comm k 1, ← Nat.add_assoc]⟩
    · rintro ⟨_ | k, b', hb', h⟩
      · obtain rfl := Option.some.inj hb'
        exact .inl h
      · exact .inr ⟨k, b', hb', by rwa [Nat.add_assoc, Nat.add_comm 1 k]⟩

theorem mem_spritePixels_iff_covers (cfg : Config) (bytes : List Byte) (vx vy : Byte) (r c : Nat) :
    (r, c) ∈ spritePixels cfg vx vy 0 bytes ↔ SpriteCovers cfg bytes vx vy r c := by
  simp only [mem_spritePixels, mem_rowPixels, Nat.zero_add, Prod.mk.injEq]
  constructor
  · rintro ⟨k, b, hb, j, hj, hbit, hr, hc⟩
    exact ⟨k, j, b, hb, hj, hbit, hr, hc⟩
  · rintro ⟨k, j, b, hb, hj, hbit, hr, hc⟩
    exact ⟨k, b, hb, j, hj, hbit, hr, hc⟩

/-! ### No pixel twice (R140, R143) -/

/-- Offsets less than the size of the display apart wrap to different places. -/
theorem wrap_injective {n a j k : Nat} (h : (a + j) % n = (a + k) % n) (hj : j < k + n) (hk : k < j + n) : j = k := by
  have hmod : j ≡ k [MOD n] := Nat.ModEq.add_left_cancel' a h
  rcases Nat.le_total j k with hle | hle
  · have hdvd := (Nat.modEq_iff_dvd' hle).1 hmod
    have := Nat.eq_zero_of_dvd_of_lt hdvd (by omega)
    omega
  · have hdvd := (Nat.modEq_iff_dvd' hle).1 hmod.symm
    have := Nat.eq_zero_of_dvd_of_lt hdvd (by omega)
    omega

/-- R140: a display is at least 8 columns wide. -/
theorem nodup_rowPixels (cfg : Config) (vx vy : Byte) (r : Nat) (b : Byte) : (rowPixels cfg vx vy r b).Nodup := by
  refine List.Nodup.map_on (fun j hj k hk e => ?_) (List.nodup_range.filter _)
  have hj' := List.mem_range.1 (List.mem_filter.1 hj).1
  have hk' := List.mem_range.1 (List.mem_filter.1 hk).1
  have hwide := cfg.wide
  exact wrap_injective (congrArg Prod.snd e) (by omega) (by omega)

/-- R140: a display is at least 15 rows high. -/
theorem nodup_spritePixels (cfg : Config) (vx vy : Byte) (bytes : List Byte) (r : Nat) (h : bytes.length ≤ 15) :
    (spritePixels cfg vx vy r bytes).Nodup := by
  induction bytes generalizing r with
  | nil => exact List.nodup_nil
  | cons b rest ih =>
    have hlen : rest.length < 15 := h
    refine List.nodup_append.2 ⟨nodup_rowPixels cfg vx vy r b, ih (r + 1) hlen.le, fun p hp q hq e => ?_⟩
    subst e
    obtain ⟨j, -, -, rfl⟩ := mem_rowPixels.1 hp
    obtain ⟨k, b', hb', hq⟩ := mem_spritePixels.1 hq
    obtain ⟨j', -, -, e⟩ := mem_rowPixels.1 hq
    have hk := (List.getElem?_eq_some_iff.1 hb').1
    have htall := cfg.tall
    have hrow : r = r + 1 + k := wrap_injective (congrArg Prod.fst e) (by omega) (by omega)
    omega

/-! ### The blit -/

theorem isSet_drawSprite (cfg : Config) (fb : Bitmap) {bytes : List Byte} (vx vy : Byte) (h : bytes.length ≤ 15) (r c : Nat) :
    Bitmap.isSet (drawSprite cfg fb bytes vx vy).1 r c =
      (Bitmap.isSet fb r c ^^ decide ((r, c) ∈ spritePixels cfg vx vy 0 bytes)) := by
  rw [drawSprite_eq_foldl, isSet_foldl_togglePixel (nodup_spritePixels cfg vx vy bytes 0 h)]

end Machine

/-- Settles O37: the sprite's pixels are flipped once each, and the answer is whether one of them was set before. -/
theorem drawSpriteIsXor : Obligations.DrawSpriteIsXor := by
  refine fun cfg fb bytes vx vy h => ⟨fun r c => ?_, ?_⟩
  · rw [isSet_drawSprite cfg fb vx vy h, ← mem_spritePixels_iff_covers]
    by_cases hmem : (r, c) ∈ spritePixels cfg vx vy 0 bytes <;> simp [hmem]
  · rw [drawSprite_eq_foldl, foldl_togglePixel_collides (nodup_spritePixels cfg vx vy bytes 0 h)]
    simp only [← mem_spritePixels_iff_covers, Bool.false_eq_true, false_or]
    constructor
    · rintro ⟨⟨r, c⟩, hmem, hset⟩
      exact ⟨r, c, hset, hmem⟩
    · rintro ⟨r, c, hset, hmem⟩
      exact ⟨(r, c), hmem, hset⟩

end Sys2Proof
end

section
/-! PROOFS. `Dxyn` (46_draw.md R142, R146): its bytes, its run, and drawing the same sprite twice. -/

namespace Sys2Proof

open Machine

namespace Machine

theorem spriteBytes_length (s : State) (n : Nibble) : (spriteBytes s n).length = n.toNat := by
  rw [spriteBytes, List.length_map, List.length_range]

theorem spriteBytes_length_le (s : State) (n : Nibble) : (spriteBytes s n).length ≤ 15 :=
  spriteBytes_length s n ▸ Nat.le_of_lt_succ n.isLt

/-- R141: the bytes that the instruction reads are the sprite's. -/
theorem readBytes_eq_spriteBytes (s : State) (n : Nibble) : s.readBytes (elementAddress s 0) n.toNat = spriteBytes s n := by
  apply List.ext_getElem
  · rw [State.readBytes_length, spriteBytes_length]
  · intro k _ _
    simp [spriteBytes, elementAddress]

theorem spriteBytes_congr {s t : State} (hc : t.config = s.config) (hm : t.mem = s.mem) (hi : t.i = s.i) (n : Nibble) :
    spriteBytes t n = spriteBytes s n := by
  unfold spriteBytes elementAddress State.readByte
  rw [hc, hm, hi]

/-- R142: the blit that `Dxyn` does. -/
def drwBlit (x y : RegIdx) (n : Nibble) (s : State) : Blit :=
  drawSprite s.config s.fb (spriteBytes s n) (s.getV x) (s.getV y)

/-- R142: the state that the dispatch of `Dxyn` ends in. -/
def drwDispatched (x y : RegIdx) (n : Nibble) (s : State) : State :=
  ((s.advance.emit (.drawSprite (spriteBytes s n) (s.getV x) (s.getV y))).setFb (drwBlit x y n s).1).setFlag (drwBlit x y n s).2

section

variable {x y : RegIdx} {n : Nibble} {s : State} (hfits : n = 0#4 ∨ s.i.toNat + n.toNat - 1 ≤ 0xFFF)

include hfits

theorem not_rangeFaults_drw : ¬ (1 ≤ n.toNat ∧ s.i.toNat + n.toNat - 1 > 0xFFF) := by
  rintro ⟨hn, hi⟩
  rcases hfits with rfl | hfits
  · exact absurd hn (by decide)
  · omega

theorem exec_drw : exec (.drw x y n) s = .next (drwDispatched x y n s).decrementTimers := by
  rw [exec_drw_draws (not_rangeFaults_drw hfits), readBytes_eq_spriteBytes]
  rfl

end

/-- R142: what `Dxyn` writes into `V[15]`. -/
theorem getV_drwDispatched_flag (x y : RegIdx) (n : Nibble) (s : State) :
    (drwDispatched x y n s).getV 0xF#4 = if (drwBlit x y n s).2 then 0x01#8 else 0x00#8 := State.getV_setFlag_same ..

theorem drwBlit_collides_iff (x y : RegIdx) (n : Nibble) (s : State) :
    (drwBlit x y n s).2 = true ↔
      ∃ r c, s.pixel r c = true ∧ SpriteCovers s.config (spriteBytes s n) (s.getV x) (s.getV y) r c :=
  (drawSpriteIsXor s.config s.fb (spriteBytes s n) (s.getV x) (s.getV y) (spriteBytes_length_le s n)).2

theorem isSet_drwBlit (x y : RegIdx) (n : Nibble) (s : State) (r c : Nat) :
    Bitmap.isSet (drwBlit x y n s).1 r c =
      (s.pixel r c ^^ decide ((r, c) ∈ spritePixels s.config (s.getV x) (s.getV y) 0 (spriteBytes s n))) :=
  isSet_drawSprite s.config s.fb (s.getV x) (s.getV y) (spriteBytes_length_le s n) r c

end Machine

/-- Settles O38: `Dxyn` is the advance, one event, the blit and its answer as the flag. -/
theorem drwDrawsAndReportsCollision : Obligations.DrwDrawsAndReportsCollision := by
  refine fun x y n s => ⟨resolve_encode (i := .drw x y n) rfl, fun hfits => ?_⟩
  refine Runs.of_exec (exec_drw hfits) (faultCause_drw_none.2 (not_rangeFaults_drw hfits)) rfl rfl rfl
    (fun _ hc => hc) ⟨rfl, fun r c => ?_, fun hcol => ?_, fun hno => ?_⟩
  · exact (drawSpriteIsXor s.config s.fb _ _ _ (spriteBytes_length_le s n)).1 r c
  · rw [State.decrementTimers_getV, getV_drwDispatched_flag, if_pos ((drwBlit_collides_iff x y n s).2 hcol)]
  · rw [State.decrementTimers_getV, getV_drwDispatched_flag, if_neg]
    rw [drwBlit_collides_iff]
    exact fun ⟨r, c, hset, hcovers⟩ => hno r c hset hcovers

namespace Machine

/-- R146: in the state the first drawing leaves, the same sprite is drawn at the same place. -/
theorem drwBlit_again {x y : RegIdx} (hx : x ≠ 0xF#4) (hy : y ≠ 0xF#4) (n : Nibble) (s : State) :
    drwBlit x y n (drwDispatched x y n s).decrementTimers =
      drawSprite s.config (drwBlit x y n s).1 (spriteBytes s n) (s.getV x) (s.getV y) := by
  have hbytes : spriteBytes (drwDispatched x y n s).decrementTimers n = spriteBytes s n := spriteBytes_congr rfl rfl rfl n
  have hvx : (drwDispatched x y n s).decrementTimers.getV x = s.getV x := State.getV_setFlag_ne _ _ hx
  have hvy : (drwDispatched x y n s).decrementTimers.getV y = s.getV y := State.getV_setFlag_ne _ _ hy
  rw [drwBlit, hbytes, hvx, hvy]
  rfl

theorem drawSprite_twice {cfg : Config} {fb : Bitmap} {bytes : List Byte} (vx vy : Byte) (hwf : Bitmap.wf cfg fb)
    (h : bytes.length ≤ 15) : (drawSprite cfg (drawSprite cfg fb bytes vx vy).1 bytes vx vy).1 = fb := by
  refine Bitmap.ext_of_wf (wf_drawSprite bytes vx vy (wf_drawSprite bytes vx vy hwf)) hwf fun r c => ?_
  rw [isSet_drawSprite cfg _ vx vy h, isSet_drawSprite cfg fb vx vy h, Bool.xor_assoc, Bool.xor_self, Bool.xor_false]

end Machine

/-- Settles O39: the second drawing flips the same pixels back, and it clears those that the first one set. -/
theorem drawingTwiceRestoresTheDisplay : Obligations.DrawingTwiceRestoresTheDisplay := by
  intro x y n s hx hy hwf hfits
  have hlen := spriteBytes_length_le s n
  have hagain := drwBlit_again hx hy n s
  refine ⟨_, _, exec_drw hfits, exec_drw hfits, ?_, ?_⟩
  · exact (congrArg Prod.fst hagain).trans (drawSprite_twice (s.getV x) (s.getV y) hwf hlen)
  · rw [State.decrementTimers_getV, getV_drwDispatched_flag, hagain]
    have hflag : ∀ b : Bool, (if b then 0x01#8 else 0x00#8) = 1#8 ↔ b = true := by decide
    rw [hflag, (drawSpriteIsXor s.config (drwBlit x y n s).1 (spriteBytes s n) (s.getV x) (s.getV y) hlen).2]
    refine exists_congr fun r => exists_congr fun c => and_congr_left fun hcovers => ?_
    rw [isSet_drwBlit, decide_eq_true ((mem_spritePixels_iff_covers ..).2 hcovers), Bool.xor_true, Bool.not_eq_true']

end Sys2Proof
end
